-- ==== Sys2Proof/Word.lean ====
section
/-! DEFINITION. The two word types of the block: a byte of the bus and the 16-bit words of program
counters, index registers, opcodes and return addresses (00_scope.md R6: REG_W, PC_W). -/

namespace Sys2Proof

/-- One byte of the bus, one 8-bit register. -/
abbrev Byte := BitVec 8

/-- One 16-bit register, one CHIP-8 opcode. -/
abbrev Word := BitVec 16

end Sys2Proof
end

