-- ==== Sys2Proof/Machine/Bits.lean ====
section
/-! DEFINITION. Byte-order, bit-field and sign-extension helpers (00_scope.md R9, R10; 20_memory.md R85,
R86; 30_encoding.md R131). -/

namespace Sys2Proof.Machine

/-- `hi:lo`, the 16-bit value with `hi` the more significant byte (R9). -/
def mkWord (hi lo : Byte) : Word := hi ++ lo

/-- `w[15:8]`. -/
def hiByte (w : Word) : Byte := w.extractLsb' 8 8

/-- `w[7:0]`. -/
def loByte (w : Word) : Byte := w.extractLsb' 0 8

/-- `sext_8(v)` on 16 bits (R10, R122). -/
def sext8 (v : Byte) : Word := v.signExtend 16

/-- `zext` of a byte to 16 bits. -/
def zext8 (v : Byte) : Word := v.setWidth 16

/-- `zext` of a 12-bit address to 16 bits (R132). -/
def zext12 (v : BitVec 12) : Word := v.setWidth 16

/-- `v[3:0]` (D16). -/
def lowNibble (v : Byte) : BitVec 4 := v.extractLsb' 0 4

/-- A flag as a register value, 0 or 1. -/
def flagByte (b : Bool) : Byte := if b then 1 else 0

/-- The field `top` of an opcode (R131). -/
def opTop (op : Word) : BitVec 4 := op.extractLsb' 12 4

/-- The field `x` of an opcode (R131). -/
def opX (op : Word) : BitVec 4 := op.extractLsb' 8 4

/-- The field `y` of an opcode (R131). -/
def opY (op : Word) : BitVec 4 := op.extractLsb' 4 4

/-- The field `n` of an opcode (R131). -/
def opN (op : Word) : BitVec 4 := op.extractLsb' 0 4

/-- The field `nn` of an opcode (R131). -/
def opNN (op : Word) : Byte := op.extractLsb' 0 8

/-- The field `nnn` of an opcode (R131). -/
def opNNN (op : Word) : BitVec 12 := op.extractLsb' 0 12

end Sys2Proof.Machine
end

