-- ==== Sys2Proof/Config.lean ====
section
/-! DEFINITION. What an implementation fixes: the architecture the instance is built for and the
instance parameters (00_scope.md R2, R6). The OPEN parameters and the environment's random bytes are
opaque constants: nothing in Lean can evaluate them. -/

namespace Sys2Proof

/-- The instance parameter ARCH (00_scope.md R2). -/
inductive Arch where
  | m6502
  | n6502
  | chip8
  | xochip
deriving DecidableEq, Repr

/-- The 6502 family uses the micro-cycle engine (R2). -/
def Arch.is65 : Arch → Bool
  | .m6502 => true
  | .n6502 => true
  | .chip8 => false
  | .xochip => false

/-- MEM_SIZE (R6). -/
def Arch.memSize : Arch → Nat
  | .m6502 => 65536
  | .n6502 => 65536
  | .chip8 => 4096
  | .xochip => 65536

/-- STACK_DEPTH of the CHIP-8 family (R6); the 6502 family has no call stack. -/
def Arch.stackDepth : Arch → Nat
  | .m6502 => 0
  | .n6502 => 0
  | .chip8 => 12
  | .xochip => 16

/-- Which release edges `setKeyState` latches: two texts of the spec disagree, and an instance follows one of them
(DESIGN CHOICE, log 11). -/
inductive KeyEdge where
  /-- Every release, the last one staying (R46, R76, R378). -/
  | everyRelease
  /-- The first release of a key wait, and none outside a wait (D37). -/
  | firstInWait
deriving DecidableEq, Repr

/-- The parameters of one instance (R6). No step changes them. -/
structure Config where
  /-- ARCH (R2). -/
  arch : Arch
  /-- M65_PROGRAM_ORIGIN, OPEN (D21). -/
  m65ProgramOrigin : Word
  /-- DISPLAY_WAIT, read on CHIP8 only (R326, D30). -/
  displayWait : Bool
  /-- Q_SHIFT_VY (D31). -/
  qShiftVy : Bool
  /-- Q_MEM_INC_I (D32). -/
  qMemIncI : Bool
  /-- Q_JUMP_VX (D33). -/
  qJumpVx : Bool
  /-- Q_LOGIC_VF_RESET (D34). -/
  qLogicVfReset : Bool
  /-- Which release edges are latched (log 11). -/
  keyEdge : KeyEdge
  /-- BIGFONT, OPEN (R94, D35). -/
  bigfont : Vector Byte 160
deriving DecidableEq, Repr

/-- RAND (R371, D36): the input stream of bytes `Cxnn` draws, a free value; log 5. -/
opaque Config.rand : Nat → Byte

/-- The OPEN data of the 8 x 10 font in the reset configuration (R94); a free value; log 6. -/
opaque Config.openBigfont : Nat → Byte

/-- The OPEN origin of 6502 programs in the reset configuration (D21); a free value; log 7. -/
opaque Config.openProgramOrigin : Word

/-- The parameters of an instance of `a` at the spec's defaults (R6); the OPEN ones are free. The key latch is that of the
numbered rules (log 11). -/
def Config.standard (a : Arch) : Config where
  arch := a
  m65ProgramOrigin := Config.openProgramOrigin
  displayWait := false
  qShiftVy := true
  qMemIncI := true
  qJumpVx := false
  qLogicVfReset := decide (a = .chip8)
  keyEdge := .everyRelease
  bigfont := Vector.ofFn fun i => Config.openBigfont i.val

/-- PROGRAM_ORIGIN (R6): 0x200 on the CHIP-8 family, the OPEN parameter on the 6502 family. -/
def Config.programOrigin (c : Config) : Nat :=
  if c.arch.is65 then c.m65ProgramOrigin.toNat else 0x200

/-- MEM_SIZE of the instance. -/
def Config.memSize (c : Config) : Nat := c.arch.memSize

end Sys2Proof
end

