-- ==== Sys2Proof/Syntax.lean ====
section
/-! DEFINITION. The instructions of the four architectures: one constructor for each of the 200 rows of
opcode_table.json (30_encoding.md R125, R135, R136), and the mnemonic, addressing-mode and class names of
the 6502 family (R121, R126).

A 6502 instruction IS its opcode byte: `decode(IR)` is a function of that byte alone (R126), and each operand
byte is read from the bus by its own micro-cycle (R99, R120), so a constructor carries no operand; log 17.
The same holds for the second word of `F000 NNNN` (48_xo_ext.md R422). -/

namespace Sys2Proof

/-- One constructor per row of the opcode table. -/
inductive Instr where
  /-- `BRK` imp, opcode 00 (R296). -/
  | brk
  /-- `ORA` izx, opcode 01 (R245). -/
  | oraIzx
  /-- `ORA` zp, opcode 05 (R245). -/
  | oraZp
  /-- `ASL` zp, opcode 06 (R257). -/
  | aslZp
  /-- `PHP` imp, opcode 08 (R299). -/
  | php
  /-- `ORA` imm, opcode 09 (R245). -/
  | oraImm
  /-- `ASL` acc, opcode 0A (R257). -/
  | aslAcc
  /-- `ORA` abs, opcode 0D (R245). -/
  | oraAbs
  /-- `ASL` abs, opcode 0E (R257). -/
  | aslAbs
  /-- `BPL` rel, opcode 10 (R285). -/
  | bpl
  /-- `ORA` izy, opcode 11 (R245). -/
  | oraIzy
  /-- `ORA` zpx, opcode 15 (R245). -/
  | oraZpx
  /-- `ASL` zpx, opcode 16 (R257). -/
  | aslZpx
  /-- `CLC` imp, opcode 18 (R302). -/
  | clc
  /-- `ORA` aby, opcode 19 (R245). -/
  | oraAby
  /-- `ORA` abx, opcode 1D (R245). -/
  | oraAbx
  /-- `ASL` abx, opcode 1E (R257). -/
  | aslAbx
  /-- `JSR` abs, opcode 20 (R292). -/
  | jsr
  /-- `AND` izx, opcode 21 (R244). -/
  | andIzx
  /-- `BIT` zp, opcode 24 (R250). -/
  | bitZp
  /-- `AND` zp, opcode 25 (R244). -/
  | andZp
  /-- `ROL` zp, opcode 26 (R259). -/
  | rolZp
  /-- `PLP` imp, opcode 28 (R301). -/
  | plp
  /-- `AND` imm, opcode 29 (R244). -/
  | andImm
  /-- `ROL` acc, opcode 2A (R259). -/
  | rolAcc
  /-- `BIT` abs, opcode 2C (R250). -/
  | bitAbs
  /-- `AND` abs, opcode 2D (R244). -/
  | andAbs
  /-- `ROL` abs, opcode 2E (R259). -/
  | rolAbs
  /-- `BMI` rel, opcode 30 (R283). -/
  | bmi
  /-- `AND` izy, opcode 31 (R244). -/
  | andIzy
  /-- `AND` zpx, opcode 35 (R244). -/
  | andZpx
  /-- `ROL` zpx, opcode 36 (R259). -/
  | rolZpx
  /-- `SEC` imp, opcode 38 (R303). -/
  | sec
  /-- `AND` aby, opcode 39 (R244). -/
  | andAby
  /-- `AND` abx, opcode 3D (R244). -/
  | andAbx
  /-- `ROL` abx, opcode 3E (R259). -/
  | rolAbx
  /-- `RTI` imp, opcode 40 (R294). -/
  | rti
  /-- `EOR` izx, opcode 41 (R246). -/
  | eorIzx
  /-- `EOR` zp, opcode 45 (R246). -/
  | eorZp
  /-- `LSR` zp, opcode 46 (R258). -/
  | lsrZp
  /-- `PHA` imp, opcode 48 (R298). -/
  | pha
  /-- `EOR` imm, opcode 49 (R246). -/
  | eorImm
  /-- `LSR` acc, opcode 4A (R258). -/
  | lsrAcc
  /-- `JMP` abs, opcode 4C (R290). -/
  | jmpAbs
  /-- `EOR` abs, opcode 4D (R246). -/
  | eorAbs
  /-- `LSR` abs, opcode 4E (R258). -/
  | lsrAbs
  /-- `BVC` rel, opcode 50 (R286). -/
  | bvc
  /-- `EOR` izy, opcode 51 (R246). -/
  | eorIzy
  /-- `EOR` zpx, opcode 55 (R246). -/
  | eorZpx
  /-- `LSR` zpx, opcode 56 (R258). -/
  | lsrZpx
  /-- `CLI` imp, opcode 58 (R304). -/
  | cli
  /-- `EOR` aby, opcode 59 (R246). -/
  | eorAby
  /-- `EOR` abx, opcode 5D (R246). -/
  | eorAbx
  /-- `LSR` abx, opcode 5E (R258). -/
  | lsrAbx
  /-- `RTS` imp, opcode 60 (R293). -/
  | rts
  /-- `ADC` izx, opcode 61 (R241). -/
  | adcIzx
  /-- `ADC` zp, opcode 65 (R241). -/
  | adcZp
  /-- `ROR` zp, opcode 66 (R260). -/
  | rorZp
  /-- `PLA` imp, opcode 68 (R300). -/
  | pla
  /-- `ADC` imm, opcode 69 (R241). -/
  | adcImm
  /-- `ROR` acc, opcode 6A (R260). -/
  | rorAcc
  /-- `JMP` ind, opcode 6C (R291). -/
  | jmpInd
  /-- `ADC` abs, opcode 6D (R241). -/
  | adcAbs
  /-- `ROR` abs, opcode 6E (R260). -/
  | rorAbs
  /-- `BVS` rel, opcode 70 (R287). -/
  | bvs
  /-- `ADC` izy, opcode 71 (R241). -/
  | adcIzy
  /-- `ADC` zpx, opcode 75 (R241). -/
  | adcZpx
  /-- `ROR` zpx, opcode 76 (R260). -/
  | rorZpx
  /-- `SEI` imp, opcode 78 (R305). -/
  | sei
  /-- `ADC` aby, opcode 79 (R241). -/
  | adcAby
  /-- `ADC` abx, opcode 7D (R241). -/
  | adcAbx
  /-- `ROR` abx, opcode 7E (R260). -/
  | rorAbx
  /-- `STA` izx, opcode 81 (R223). -/
  | staIzx
  /-- `STY` zp, opcode 84 (R225). -/
  | styZp
  /-- `STA` zp, opcode 85 (R223). -/
  | staZp
  /-- `STX` zp, opcode 86 (R224). -/
  | stxZp
  /-- `DEY` imp, opcode 88 (R256). -/
  | dey
  /-- `TXA` imp, opcode 8A (R228). -/
  | txa
  /-- `STY` abs, opcode 8C (R225). -/
  | styAbs
  /-- `STA` abs, opcode 8D (R223). -/
  | staAbs
  /-- `STX` abs, opcode 8E (R224). -/
  | stxAbs
  /-- `BCC` rel, opcode 90 (R280). -/
  | bcc
  /-- `STA` izy, opcode 91 (R223). -/
  | staIzy
  /-- `STY` zpx, opcode 94 (R225). -/
  | styZpx
  /-- `STA` zpx, opcode 95 (R223). -/
  | staZpx
  /-- `STX` zpy, opcode 96 (R224). -/
  | stxZpy
  /-- `TYA` imp, opcode 98 (R229). -/
  | tya
  /-- `STA` aby, opcode 99 (R223). -/
  | staAby
  /-- `TXS` imp, opcode 9A (R231). -/
  | txs
  /-- `STA` abx, opcode 9D (R223). -/
  | staAbx
  /-- `LDY` imm, opcode A0 (R222). -/
  | ldyImm
  /-- `LDA` izx, opcode A1 (R220). -/
  | ldaIzx
  /-- `LDX` imm, opcode A2 (R221). -/
  | ldxImm
  /-- `LDY` zp, opcode A4 (R222). -/
  | ldyZp
  /-- `LDA` zp, opcode A5 (R220). -/
  | ldaZp
  /-- `LDX` zp, opcode A6 (R221). -/
  | ldxZp
  /-- `TAY` imp, opcode A8 (R227). -/
  | tay
  /-- `LDA` imm, opcode A9 (R220). -/
  | ldaImm
  /-- `TAX` imp, opcode AA (R226). -/
  | tax
  /-- `LDY` abs, opcode AC (R222). -/
  | ldyAbs
  /-- `LDA` abs, opcode AD (R220). -/
  | ldaAbs
  /-- `LDX` abs, opcode AE (R221). -/
  | ldxAbs
  /-- `BCS` rel, opcode B0 (R281). -/
  | bcs
  /-- `LDA` izy, opcode B1 (R220). -/
  | ldaIzy
  /-- `LDY` zpx, opcode B4 (R222). -/
  | ldyZpx
  /-- `LDA` zpx, opcode B5 (R220). -/
  | ldaZpx
  /-- `LDX` zpy, opcode B6 (R221). -/
  | ldxZpy
  /-- `CLV` imp, opcode B8 (R306). -/
  | clv
  /-- `LDA` aby, opcode B9 (R220). -/
  | ldaAby
  /-- `TSX` imp, opcode BA (R230). -/
  | tsx
  /-- `LDY` abx, opcode BC (R222). -/
  | ldyAbx
  /-- `LDA` abx, opcode BD (R220). -/
  | ldaAbx
  /-- `LDX` aby, opcode BE (R221). -/
  | ldxAby
  /-- `CPY` imm, opcode C0 (R249). -/
  | cpyImm
  /-- `CMP` izx, opcode C1 (R247). -/
  | cmpIzx
  /-- `CPY` zp, opcode C4 (R249). -/
  | cpyZp
  /-- `CMP` zp, opcode C5 (R247). -/
  | cmpZp
  /-- `DEC` zp, opcode C6 (R252). -/
  | decZp
  /-- `INY` imp, opcode C8 (R254). -/
  | iny
  /-- `CMP` imm, opcode C9 (R247). -/
  | cmpImm
  /-- `DEX` imp, opcode CA (R255). -/
  | dex
  /-- `CPY` abs, opcode CC (R249). -/
  | cpyAbs
  /-- `CMP` abs, opcode CD (R247). -/
  | cmpAbs
  /-- `DEC` abs, opcode CE (R252). -/
  | decAbs
  /-- `BNE` rel, opcode D0 (R284). -/
  | bne
  /-- `CMP` izy, opcode D1 (R247). -/
  | cmpIzy
  /-- `CMP` zpx, opcode D5 (R247). -/
  | cmpZpx
  /-- `DEC` zpx, opcode D6 (R252). -/
  | decZpx
  /-- `CLD` imp, opcode D8 (R307). -/
  | cld
  /-- `CMP` aby, opcode D9 (R247). -/
  | cmpAby
  /-- `CMP` abx, opcode DD (R247). -/
  | cmpAbx
  /-- `DEC` abx, opcode DE (R252). -/
  | decAbx
  /-- `CPX` imm, opcode E0 (R248). -/
  | cpxImm
  /-- `SBC` izx, opcode E1 (R243). -/
  | sbcIzx
  /-- `CPX` zp, opcode E4 (R248). -/
  | cpxZp
  /-- `SBC` zp, opcode E5 (R243). -/
  | sbcZp
  /-- `INC` zp, opcode E6 (R251). -/
  | incZp
  /-- `INX` imp, opcode E8 (R253). -/
  | inx
  /-- `SBC` imm, opcode E9 (R243). -/
  | sbcImm
  /-- `NOP` imp, opcode EA (R297). -/
  | nop
  /-- `CPX` abs, opcode EC (R248). -/
  | cpxAbs
  /-- `SBC` abs, opcode ED (R243). -/
  | sbcAbs
  /-- `INC` abs, opcode EE (R251). -/
  | incAbs
  /-- `BEQ` rel, opcode F0 (R282). -/
  | beq
  /-- `SBC` izy, opcode F1 (R243). -/
  | sbcIzy
  /-- `SBC` zpx, opcode F5 (R243). -/
  | sbcZpx
  /-- `INC` zpx, opcode F6 (R251). -/
  | incZpx
  /-- `SED` imp, opcode F8 (R308). -/
  | sed
  /-- `SBC` aby, opcode F9 (R243). -/
  | sbcAby
  /-- `SBC` abx, opcode FD (R243). -/
  | sbcAbx
  /-- `INC` abx, opcode FE (R251). -/
  | incAbx
  /-- `CLS`, match 00E0 mask FFFF (R400). -/
  | cls
  /-- `RET`, match 00EE mask FFFF (R351). -/
  | ret
  /-- `JP nnn`, match 1000 mask F000 (R350). -/
  | jp (nnn : BitVec 12)
  /-- `CALL nnn`, match 2000 mask F000 (R352). -/
  | call (nnn : BitVec 12)
  /-- `SE Vx, nn`, match 3000 mask F000 (R354). -/
  | seImm (x : BitVec 4) (nn : Byte)
  /-- `SNE Vx, nn`, match 4000 mask F000 (R355). -/
  | sneImm (x : BitVec 4) (nn : Byte)
  /-- `SE Vx, Vy`, match 5000 mask F00F (R356). -/
  | seReg (x : BitVec 4) (y : BitVec 4)
  /-- `LD Vx, nn`, match 6000 mask F000 (R358). -/
  | ldImm (x : BitVec 4) (nn : Byte)
  /-- `ADD Vx, nn`, match 7000 mask F000 (R359). -/
  | addImm (x : BitVec 4) (nn : Byte)
  /-- `LD Vx, Vy`, match 8000 mask F00F (R360). -/
  | ldReg (x : BitVec 4) (y : BitVec 4)
  /-- `OR Vx, Vy`, match 8001 mask F00F (R362). -/
  | orReg (x : BitVec 4) (y : BitVec 4)
  /-- `AND Vx, Vy`, match 8002 mask F00F (R363). -/
  | andReg (x : BitVec 4) (y : BitVec 4)
  /-- `XOR Vx, Vy`, match 8003 mask F00F (R364). -/
  | xorReg (x : BitVec 4) (y : BitVec 4)
  /-- `ADD Vx, Vy`, match 8004 mask F00F (R365). -/
  | addReg (x : BitVec 4) (y : BitVec 4)
  /-- `SUB Vx, Vy`, match 8005 mask F00F (R366). -/
  | subReg (x : BitVec 4) (y : BitVec 4)
  /-- `SHR Vx, Vy`, match 8006 mask F00F (R367). -/
  | shrReg (x : BitVec 4) (y : BitVec 4)
  /-- `SUBN Vx, Vy`, match 8007 mask F00F (R368). -/
  | subnReg (x : BitVec 4) (y : BitVec 4)
  /-- `SHL Vx, Vy`, match 800E mask F00F (R369). -/
  | shlReg (x : BitVec 4) (y : BitVec 4)
  /-- `SNE Vx, Vy`, match 9000 mask F00F (R357). -/
  | sneReg (x : BitVec 4) (y : BitVec 4)
  /-- `LD I, nnn`, match A000 mask F000 (R370). -/
  | ldI (nnn : BitVec 12)
  /-- `JP V0, nnn`, match B000 mask F000 (R353). -/
  | jpV0 (nnn : BitVec 12)
  /-- `RND Vx, nn`, match C000 mask F000 (R371). -/
  | rnd (x : BitVec 4) (nn : Byte)
  /-- `DRW Vx, Vy, n`, match D000 mask F000 (R401). -/
  | drw (x : BitVec 4) (y : BitVec 4) (n : BitVec 4)
  /-- `SKP Vx`, match E09E mask F0FF (R372). -/
  | skp (x : BitVec 4)
  /-- `SKNP Vx`, match E0A1 mask F0FF (R373). -/
  | sknp (x : BitVec 4)
  /-- `LD Vx, DT`, match F007 mask F0FF (R374). -/
  | ldVxDt (x : BitVec 4)
  /-- `LD Vx, K`, match F00A mask F0FF (R378). -/
  | ldVxK (x : BitVec 4)
  /-- `LD DT, Vx`, match F015 mask F0FF (R375). -/
  | ldDtVx (x : BitVec 4)
  /-- `LD ST, Vx`, match F018 mask F0FF (R376). -/
  | ldStVx (x : BitVec 4)
  /-- `ADD I, Vx`, match F01E mask F0FF (R377). -/
  | addI (x : BitVec 4)
  /-- `LD F, Vx`, match F029 mask F0FF (R379). -/
  | ldF (x : BitVec 4)
  /-- `LD B, Vx`, match F033 mask F0FF (R380). -/
  | ldB (x : BitVec 4)
  /-- `LD [I], Vx`, match F055 mask F0FF (R381). -/
  | ldMemVx (x : BitVec 4)
  /-- `LD Vx, [I]`, match F065 mask F0FF (R382). -/
  | ldVxMem (x : BitVec 4)
  /-- `SCD n`, match 00C0 mask FFF0 (R404). -/
  | scd (n : BitVec 4)
  /-- `SCU n`, match 00D0 mask FFF0 (R405). -/
  | scu (n : BitVec 4)
  /-- `SCR`, match 00FB mask FFFF (R406). -/
  | scr
  /-- `SCL`, match 00FC mask FFFF (R407). -/
  | scl
  /-- `LOW`, match 00FE mask FFFF (R410). -/
  | low
  /-- `HIGH`, match 00FF mask FFFF (R411). -/
  | high
  /-- `SAVE Vx-Vy`, match 5002 mask F00F (R420). -/
  | saveRange (x : BitVec 4) (y : BitVec 4)
  /-- `LOAD Vx-Vy`, match 5003 mask F00F (R421). -/
  | loadRange (x : BitVec 4) (y : BitVec 4)
  /-- `LD I, long NNNN`, match F000 mask FFFF (R422). -/
  | ldILong
  /-- `PLANE n`, match F001 mask F0FF (R423). -/
  | plane (n : BitVec 4)
  /-- `AUDIO`, match F002 mask FFFF (R424). -/
  | audio
  /-- `LD HF, Vx`, match F030 mask F0FF (R425). -/
  | ldHf (x : BitVec 4)
  /-- `PITCH Vx`, match F03A mask F0FF (R426). -/
  | pitch (x : BitVec 4)
  /-- `LD R, Vx`, match F075 mask F0FF (R427). -/
  | ldRVx (x : BitVec 4)
  /-- `LD Vx, R`, match F085 mask F0FF (R428). -/
  | ldVxR (x : BitVec 4)
deriving DecidableEq, Repr

/-- The 56 mnemonics of the 6502 family (R125). -/
inductive Mn where
  | adc | and | asl | bcc | bcs | beq | bit | bmi
  | bne | bpl | brk | bvc | bvs | clc | cld | cli
  | clv | cmp | cpx | cpy | dec | dex | dey | eor
  | inc | inx | iny | jmp | jsr | lda | ldx | ldy
  | lsr | nop | ora | pha | php | pla | plp | rol
  | ror | rti | rts | sbc | sec | sed | sei | sta
  | stx | sty | tax | tay | tsx | txa | txs | tya
deriving DecidableEq, Repr

/-- The thirteen addressing modes (R121). -/
inductive Mode where
  | imp | acc | imm | zp | zpx | zpy | abs | abx | aby | izx | izy | rel | ind
deriving DecidableEq, Repr

/-- The classes that select a resolver sequence together with the mode (R126, D10). -/
inductive Cls where
  /-- Reads one operand byte. -/
  | r
  /-- Writes one byte. -/
  | w
  /-- Reads, modifies and writes one byte of memory. -/
  | m
  /-- Modifies `A`. -/
  | acc
  /-- Registers only. -/
  | imp
  /-- Relative branch. -/
  | br
  /-- Own sequence. -/
  | special
deriving DecidableEq, Repr

end Sys2Proof
end

