-- ==== Sys2Proof/WellFormed.lean ====
section
/-! DEFINITION. Which instruction exists on which architecture: the `arch` column of the opcode table
(00_scope.md R3; 30_encoding.md R125, R135, R136, R137). Field widths are in the types. -/

namespace Sys2Proof

/-- Which table of 30_encoding.md holds the row: R125, R135 or R136. -/
inductive Table where
  | m65
  | chip8
  | xochip
deriving DecidableEq, Repr

/-- The table of each row. -/
def Instr.table : Instr → Table
  | .brk => .m65
  | .oraIzx => .m65
  | .oraZp => .m65
  | .aslZp => .m65
  | .php => .m65
  | .oraImm => .m65
  | .aslAcc => .m65
  | .oraAbs => .m65
  | .aslAbs => .m65
  | .bpl => .m65
  | .oraIzy => .m65
  | .oraZpx => .m65
  | .aslZpx => .m65
  | .clc => .m65
  | .oraAby => .m65
  | .oraAbx => .m65
  | .aslAbx => .m65
  | .jsr => .m65
  | .andIzx => .m65
  | .bitZp => .m65
  | .andZp => .m65
  | .rolZp => .m65
  | .plp => .m65
  | .andImm => .m65
  | .rolAcc => .m65
  | .bitAbs => .m65
  | .andAbs => .m65
  | .rolAbs => .m65
  | .bmi => .m65
  | .andIzy => .m65
  | .andZpx => .m65
  | .rolZpx => .m65
  | .sec => .m65
  | .andAby => .m65
  | .andAbx => .m65
  | .rolAbx => .m65
  | .rti => .m65
  | .eorIzx => .m65
  | .eorZp => .m65
  | .lsrZp => .m65
  | .pha => .m65
  | .eorImm => .m65
  | .lsrAcc => .m65
  | .jmpAbs => .m65
  | .eorAbs => .m65
  | .lsrAbs => .m65
  | .bvc => .m65
  | .eorIzy => .m65
  | .eorZpx => .m65
  | .lsrZpx => .m65
  | .cli => .m65
  | .eorAby => .m65
  | .eorAbx => .m65
  | .lsrAbx => .m65
  | .rts => .m65
  | .adcIzx => .m65
  | .adcZp => .m65
  | .rorZp => .m65
  | .pla => .m65
  | .adcImm => .m65
  | .rorAcc => .m65
  | .jmpInd => .m65
  | .adcAbs => .m65
  | .rorAbs => .m65
  | .bvs => .m65
  | .adcIzy => .m65
  | .adcZpx => .m65
  | .rorZpx => .m65
  | .sei => .m65
  | .adcAby => .m65
  | .adcAbx => .m65
  | .rorAbx => .m65
  | .staIzx => .m65
  | .styZp => .m65
  | .staZp => .m65
  | .stxZp => .m65
  | .dey => .m65
  | .txa => .m65
  | .styAbs => .m65
  | .staAbs => .m65
  | .stxAbs => .m65
  | .bcc => .m65
  | .staIzy => .m65
  | .styZpx => .m65
  | .staZpx => .m65
  | .stxZpy => .m65
  | .tya => .m65
  | .staAby => .m65
  | .txs => .m65
  | .staAbx => .m65
  | .ldyImm => .m65
  | .ldaIzx => .m65
  | .ldxImm => .m65
  | .ldyZp => .m65
  | .ldaZp => .m65
  | .ldxZp => .m65
  | .tay => .m65
  | .ldaImm => .m65
  | .tax => .m65
  | .ldyAbs => .m65
  | .ldaAbs => .m65
  | .ldxAbs => .m65
  | .bcs => .m65
  | .ldaIzy => .m65
  | .ldyZpx => .m65
  | .ldaZpx => .m65
  | .ldxZpy => .m65
  | .clv => .m65
  | .ldaAby => .m65
  | .tsx => .m65
  | .ldyAbx => .m65
  | .ldaAbx => .m65
  | .ldxAby => .m65
  | .cpyImm => .m65
  | .cmpIzx => .m65
  | .cpyZp => .m65
  | .cmpZp => .m65
  | .decZp => .m65
  | .iny => .m65
  | .cmpImm => .m65
  | .dex => .m65
  | .cpyAbs => .m65
  | .cmpAbs => .m65
  | .decAbs => .m65
  | .bne => .m65
  | .cmpIzy => .m65
  | .cmpZpx => .m65
  | .decZpx => .m65
  | .cld => .m65
  | .cmpAby => .m65
  | .cmpAbx => .m65
  | .decAbx => .m65
  | .cpxImm => .m65
  | .sbcIzx => .m65
  | .cpxZp => .m65
  | .sbcZp => .m65
  | .incZp => .m65
  | .inx => .m65
  | .sbcImm => .m65
  | .nop => .m65
  | .cpxAbs => .m65
  | .sbcAbs => .m65
  | .incAbs => .m65
  | .beq => .m65
  | .sbcIzy => .m65
  | .sbcZpx => .m65
  | .incZpx => .m65
  | .sed => .m65
  | .sbcAby => .m65
  | .sbcAbx => .m65
  | .incAbx => .m65
  | .cls => .chip8
  | .ret => .chip8
  | .jp _ => .chip8
  | .call _ => .chip8
  | .seImm _ _ => .chip8
  | .sneImm _ _ => .chip8
  | .seReg _ _ => .chip8
  | .ldImm _ _ => .chip8
  | .addImm _ _ => .chip8
  | .ldReg _ _ => .chip8
  | .orReg _ _ => .chip8
  | .andReg _ _ => .chip8
  | .xorReg _ _ => .chip8
  | .addReg _ _ => .chip8
  | .subReg _ _ => .chip8
  | .shrReg _ _ => .chip8
  | .subnReg _ _ => .chip8
  | .shlReg _ _ => .chip8
  | .sneReg _ _ => .chip8
  | .ldI _ => .chip8
  | .jpV0 _ => .chip8
  | .rnd _ _ => .chip8
  | .drw _ _ _ => .chip8
  | .skp _ => .chip8
  | .sknp _ => .chip8
  | .ldVxDt _ => .chip8
  | .ldVxK _ => .chip8
  | .ldDtVx _ => .chip8
  | .ldStVx _ => .chip8
  | .addI _ => .chip8
  | .ldF _ => .chip8
  | .ldB _ => .chip8
  | .ldMemVx _ => .chip8
  | .ldVxMem _ => .chip8
  | .scd _ => .xochip
  | .scu _ => .xochip
  | .scr => .xochip
  | .scl => .xochip
  | .low => .xochip
  | .high => .xochip
  | .saveRange _ _ => .xochip
  | .loadRange _ _ => .xochip
  | .ldILong => .xochip
  | .plane _ => .xochip
  | .audio => .xochip
  | .ldHf _ => .xochip
  | .pitch _ => .xochip
  | .ldRVx _ => .xochip
  | .ldVxR _ => .xochip

/-- A table's rows are valid on: the 6502 family; both CHIP-8 architectures; XOCHIP only. -/
def Table.validOn : Table → Arch → Bool
  | .m65, a => a.is65
  | .chip8, a => !a.is65
  | .xochip, a => decide (a = .xochip)

/-- `i` is an instruction of an instance of architecture `a`. -/
def Instr.wellFormed (a : Arch) (i : Instr) : Bool := i.table.validOn a

end Sys2Proof
end

