-- ==== Sys2Proof/Decode.lean ====
section
/-! DEFINITION. The decoder and, after it, the encoder, both written from the tables of 30_encoding.md
(R125, R126, R131, R135, R136, R137), and the host's reading of one word of the opcode table. The decoder is
total on any bytes and rejects by name. -/

namespace Sys2Proof

open Sys2Proof.Machine

/-- Why bytes are no instruction. -/
inductive DecodeError where
  /-- One of the 105 opcode bytes of R127; safe: the engine logs it and goes on (R162). -/
  | illegalOpcode (b : Byte)
  /-- A CHIP-8 word that matches no row of the architecture (R137); safe: logged (R324). -/
  | unknownOpcode (w : Word)
  /-- Fewer bytes than one opcode; the engines never meet it, they always read whole opcodes. -/
  | truncated
deriving DecidableEq, Repr

/-! ## 6502 family -/

/-- The legal opcodes 00 to 0F (R125). -/
def opcodeRow0 : List (Byte × Instr) :=
  [(0x00, .brk), (0x01, .oraIzx), (0x05, .oraZp), (0x06, .aslZp), (0x08, .php), (0x09, .oraImm),
   (0x0A, .aslAcc), (0x0D, .oraAbs), (0x0E, .aslAbs)]

/-- The legal opcodes 10 to 1F (R125). -/
def opcodeRow1 : List (Byte × Instr) :=
  [(0x10, .bpl), (0x11, .oraIzy), (0x15, .oraZpx), (0x16, .aslZpx), (0x18, .clc), (0x19, .oraAby),
   (0x1D, .oraAbx), (0x1E, .aslAbx)]

/-- The legal opcodes 20 to 2F (R125). -/
def opcodeRow2 : List (Byte × Instr) :=
  [(0x20, .jsr), (0x21, .andIzx), (0x24, .bitZp), (0x25, .andZp), (0x26, .rolZp), (0x28, .plp),
   (0x29, .andImm), (0x2A, .rolAcc), (0x2C, .bitAbs), (0x2D, .andAbs), (0x2E, .rolAbs)]

/-- The legal opcodes 30 to 3F (R125). -/
def opcodeRow3 : List (Byte × Instr) :=
  [(0x30, .bmi), (0x31, .andIzy), (0x35, .andZpx), (0x36, .rolZpx), (0x38, .sec), (0x39, .andAby),
   (0x3D, .andAbx), (0x3E, .rolAbx)]

/-- The legal opcodes 40 to 4F (R125). -/
def opcodeRow4 : List (Byte × Instr) :=
  [(0x40, .rti), (0x41, .eorIzx), (0x45, .eorZp), (0x46, .lsrZp), (0x48, .pha), (0x49, .eorImm),
   (0x4A, .lsrAcc), (0x4C, .jmpAbs), (0x4D, .eorAbs), (0x4E, .lsrAbs)]

/-- The legal opcodes 50 to 5F (R125). -/
def opcodeRow5 : List (Byte × Instr) :=
  [(0x50, .bvc), (0x51, .eorIzy), (0x55, .eorZpx), (0x56, .lsrZpx), (0x58, .cli), (0x59, .eorAby),
   (0x5D, .eorAbx), (0x5E, .lsrAbx)]

/-- The legal opcodes 60 to 6F (R125). -/
def opcodeRow6 : List (Byte × Instr) :=
  [(0x60, .rts), (0x61, .adcIzx), (0x65, .adcZp), (0x66, .rorZp), (0x68, .pla), (0x69, .adcImm),
   (0x6A, .rorAcc), (0x6C, .jmpInd), (0x6D, .adcAbs), (0x6E, .rorAbs)]

/-- The legal opcodes 70 to 7F (R125). -/
def opcodeRow7 : List (Byte × Instr) :=
  [(0x70, .bvs), (0x71, .adcIzy), (0x75, .adcZpx), (0x76, .rorZpx), (0x78, .sei), (0x79, .adcAby),
   (0x7D, .adcAbx), (0x7E, .rorAbx)]

/-- The legal opcodes 80 to 8F (R125). -/
def opcodeRow8 : List (Byte × Instr) :=
  [(0x81, .staIzx), (0x84, .styZp), (0x85, .staZp), (0x86, .stxZp), (0x88, .dey), (0x8A, .txa),
   (0x8C, .styAbs), (0x8D, .staAbs), (0x8E, .stxAbs)]

/-- The legal opcodes 90 to 9F (R125). -/
def opcodeRow9 : List (Byte × Instr) :=
  [(0x90, .bcc), (0x91, .staIzy), (0x94, .styZpx), (0x95, .staZpx), (0x96, .stxZpy), (0x98, .tya),
   (0x99, .staAby), (0x9A, .txs), (0x9D, .staAbx)]

/-- The legal opcodes A0 to AF (R125). -/
def opcodeRowA : List (Byte × Instr) :=
  [(0xA0, .ldyImm), (0xA1, .ldaIzx), (0xA2, .ldxImm), (0xA4, .ldyZp), (0xA5, .ldaZp), (0xA6, .ldxZp),
   (0xA8, .tay), (0xA9, .ldaImm), (0xAA, .tax), (0xAC, .ldyAbs), (0xAD, .ldaAbs), (0xAE, .ldxAbs)]

/-- The legal opcodes B0 to BF (R125). -/
def opcodeRowB : List (Byte × Instr) :=
  [(0xB0, .bcs), (0xB1, .ldaIzy), (0xB4, .ldyZpx), (0xB5, .ldaZpx), (0xB6, .ldxZpy), (0xB8, .clv),
   (0xB9, .ldaAby), (0xBA, .tsx), (0xBC, .ldyAbx), (0xBD, .ldaAbx), (0xBE, .ldxAby)]

/-- The legal opcodes C0 to CF (R125). -/
def opcodeRowC : List (Byte × Instr) :=
  [(0xC0, .cpyImm), (0xC1, .cmpIzx), (0xC4, .cpyZp), (0xC5, .cmpZp), (0xC6, .decZp), (0xC8, .iny),
   (0xC9, .cmpImm), (0xCA, .dex), (0xCC, .cpyAbs), (0xCD, .cmpAbs), (0xCE, .decAbs)]

/-- The legal opcodes D0 to DF (R125). -/
def opcodeRowD : List (Byte × Instr) :=
  [(0xD0, .bne), (0xD1, .cmpIzy), (0xD5, .cmpZpx), (0xD6, .decZpx), (0xD8, .cld), (0xD9, .cmpAby),
   (0xDD, .cmpAbx), (0xDE, .decAbx)]

/-- The legal opcodes E0 to EF (R125). -/
def opcodeRowE : List (Byte × Instr) :=
  [(0xE0, .cpxImm), (0xE1, .sbcIzx), (0xE4, .cpxZp), (0xE5, .sbcZp), (0xE6, .incZp), (0xE8, .inx),
   (0xE9, .sbcImm), (0xEA, .nop), (0xEC, .cpxAbs), (0xED, .sbcAbs), (0xEE, .incAbs)]

/-- The legal opcodes F0 to FF (R125). -/
def opcodeRowF : List (Byte × Instr) :=
  [(0xF0, .beq), (0xF1, .sbcIzy), (0xF5, .sbcZpx), (0xF6, .incZpx), (0xF8, .sed), (0xF9, .sbcAby),
   (0xFD, .sbcAbx), (0xFE, .incAbx)]

/-- The 151 opcodes of the 6502 family, by opcode (R125). -/
def opcodeTable : List (Byte × Instr) :=
  opcodeRow0 ++ opcodeRow1 ++ opcodeRow2 ++ opcodeRow3 ++ opcodeRow4 ++ opcodeRow5 ++
  opcodeRow6 ++ opcodeRow7 ++ opcodeRow8 ++ opcodeRow9 ++ opcodeRowA ++ opcodeRowB ++
  opcodeRowC ++ opcodeRowD ++ opcodeRowE ++ opcodeRowF

/-- `decode(IR)` (R126): the row of the opcode byte, or illegal (R127). -/
def decode65 (b : Byte) : Except DecodeError Instr :=
  match opcodeTable.lookup b with
  | some i => .ok i
  | none => .error (.illegalOpcode b)

/-- The mnemonic and addressing mode of a 6502 row (R126): none on a CHIP-8 row. -/
def Instr.m65 : Instr → Option (Mn × Mode)
  | .brk => some (.brk, .imp)
  | .oraIzx => some (.ora, .izx)
  | .oraZp => some (.ora, .zp)
  | .aslZp => some (.asl, .zp)
  | .php => some (.php, .imp)
  | .oraImm => some (.ora, .imm)
  | .aslAcc => some (.asl, .acc)
  | .oraAbs => some (.ora, .abs)
  | .aslAbs => some (.asl, .abs)
  | .bpl => some (.bpl, .rel)
  | .oraIzy => some (.ora, .izy)
  | .oraZpx => some (.ora, .zpx)
  | .aslZpx => some (.asl, .zpx)
  | .clc => some (.clc, .imp)
  | .oraAby => some (.ora, .aby)
  | .oraAbx => some (.ora, .abx)
  | .aslAbx => some (.asl, .abx)
  | .jsr => some (.jsr, .abs)
  | .andIzx => some (.and, .izx)
  | .bitZp => some (.bit, .zp)
  | .andZp => some (.and, .zp)
  | .rolZp => some (.rol, .zp)
  | .plp => some (.plp, .imp)
  | .andImm => some (.and, .imm)
  | .rolAcc => some (.rol, .acc)
  | .bitAbs => some (.bit, .abs)
  | .andAbs => some (.and, .abs)
  | .rolAbs => some (.rol, .abs)
  | .bmi => some (.bmi, .rel)
  | .andIzy => some (.and, .izy)
  | .andZpx => some (.and, .zpx)
  | .rolZpx => some (.rol, .zpx)
  | .sec => some (.sec, .imp)
  | .andAby => some (.and, .aby)
  | .andAbx => some (.and, .abx)
  | .rolAbx => some (.rol, .abx)
  | .rti => some (.rti, .imp)
  | .eorIzx => some (.eor, .izx)
  | .eorZp => some (.eor, .zp)
  | .lsrZp => some (.lsr, .zp)
  | .pha => some (.pha, .imp)
  | .eorImm => some (.eor, .imm)
  | .lsrAcc => some (.lsr, .acc)
  | .jmpAbs => some (.jmp, .abs)
  | .eorAbs => some (.eor, .abs)
  | .lsrAbs => some (.lsr, .abs)
  | .bvc => some (.bvc, .rel)
  | .eorIzy => some (.eor, .izy)
  | .eorZpx => some (.eor, .zpx)
  | .lsrZpx => some (.lsr, .zpx)
  | .cli => some (.cli, .imp)
  | .eorAby => some (.eor, .aby)
  | .eorAbx => some (.eor, .abx)
  | .lsrAbx => some (.lsr, .abx)
  | .rts => some (.rts, .imp)
  | .adcIzx => some (.adc, .izx)
  | .adcZp => some (.adc, .zp)
  | .rorZp => some (.ror, .zp)
  | .pla => some (.pla, .imp)
  | .adcImm => some (.adc, .imm)
  | .rorAcc => some (.ror, .acc)
  | .jmpInd => some (.jmp, .ind)
  | .adcAbs => some (.adc, .abs)
  | .rorAbs => some (.ror, .abs)
  | .bvs => some (.bvs, .rel)
  | .adcIzy => some (.adc, .izy)
  | .adcZpx => some (.adc, .zpx)
  | .rorZpx => some (.ror, .zpx)
  | .sei => some (.sei, .imp)
  | .adcAby => some (.adc, .aby)
  | .adcAbx => some (.adc, .abx)
  | .rorAbx => some (.ror, .abx)
  | .staIzx => some (.sta, .izx)
  | .styZp => some (.sty, .zp)
  | .staZp => some (.sta, .zp)
  | .stxZp => some (.stx, .zp)
  | .dey => some (.dey, .imp)
  | .txa => some (.txa, .imp)
  | .styAbs => some (.sty, .abs)
  | .staAbs => some (.sta, .abs)
  | .stxAbs => some (.stx, .abs)
  | .bcc => some (.bcc, .rel)
  | .staIzy => some (.sta, .izy)
  | .styZpx => some (.sty, .zpx)
  | .staZpx => some (.sta, .zpx)
  | .stxZpy => some (.stx, .zpy)
  | .tya => some (.tya, .imp)
  | .staAby => some (.sta, .aby)
  | .txs => some (.txs, .imp)
  | .staAbx => some (.sta, .abx)
  | .ldyImm => some (.ldy, .imm)
  | .ldaIzx => some (.lda, .izx)
  | .ldxImm => some (.ldx, .imm)
  | .ldyZp => some (.ldy, .zp)
  | .ldaZp => some (.lda, .zp)
  | .ldxZp => some (.ldx, .zp)
  | .tay => some (.tay, .imp)
  | .ldaImm => some (.lda, .imm)
  | .tax => some (.tax, .imp)
  | .ldyAbs => some (.ldy, .abs)
  | .ldaAbs => some (.lda, .abs)
  | .ldxAbs => some (.ldx, .abs)
  | .bcs => some (.bcs, .rel)
  | .ldaIzy => some (.lda, .izy)
  | .ldyZpx => some (.ldy, .zpx)
  | .ldaZpx => some (.lda, .zpx)
  | .ldxZpy => some (.ldx, .zpy)
  | .clv => some (.clv, .imp)
  | .ldaAby => some (.lda, .aby)
  | .tsx => some (.tsx, .imp)
  | .ldyAbx => some (.ldy, .abx)
  | .ldaAbx => some (.lda, .abx)
  | .ldxAby => some (.ldx, .aby)
  | .cpyImm => some (.cpy, .imm)
  | .cmpIzx => some (.cmp, .izx)
  | .cpyZp => some (.cpy, .zp)
  | .cmpZp => some (.cmp, .zp)
  | .decZp => some (.dec, .zp)
  | .iny => some (.iny, .imp)
  | .cmpImm => some (.cmp, .imm)
  | .dex => some (.dex, .imp)
  | .cpyAbs => some (.cpy, .abs)
  | .cmpAbs => some (.cmp, .abs)
  | .decAbs => some (.dec, .abs)
  | .bne => some (.bne, .rel)
  | .cmpIzy => some (.cmp, .izy)
  | .cmpZpx => some (.cmp, .zpx)
  | .decZpx => some (.dec, .zpx)
  | .cld => some (.cld, .imp)
  | .cmpAby => some (.cmp, .aby)
  | .cmpAbx => some (.cmp, .abx)
  | .decAbx => some (.dec, .abx)
  | .cpxImm => some (.cpx, .imm)
  | .sbcIzx => some (.sbc, .izx)
  | .cpxZp => some (.cpx, .zp)
  | .sbcZp => some (.sbc, .zp)
  | .incZp => some (.inc, .zp)
  | .inx => some (.inx, .imp)
  | .sbcImm => some (.sbc, .imm)
  | .nop => some (.nop, .imp)
  | .cpxAbs => some (.cpx, .abs)
  | .sbcAbs => some (.sbc, .abs)
  | .incAbs => some (.inc, .abs)
  | .beq => some (.beq, .rel)
  | .sbcIzy => some (.sbc, .izy)
  | .sbcZpx => some (.sbc, .zpx)
  | .incZpx => some (.inc, .zpx)
  | .sed => some (.sed, .imp)
  | .sbcAby => some (.sbc, .aby)
  | .sbcAbx => some (.sbc, .abx)
  | .incAbx => some (.inc, .abx)
  | .cls => none
  | .ret => none
  | .jp _ => none
  | .call _ => none
  | .seImm _ _ => none
  | .sneImm _ _ => none
  | .seReg _ _ => none
  | .ldImm _ _ => none
  | .addImm _ _ => none
  | .ldReg _ _ => none
  | .orReg _ _ => none
  | .andReg _ _ => none
  | .xorReg _ _ => none
  | .addReg _ _ => none
  | .subReg _ _ => none
  | .shrReg _ _ => none
  | .subnReg _ _ => none
  | .shlReg _ _ => none
  | .sneReg _ _ => none
  | .ldI _ => none
  | .jpV0 _ => none
  | .rnd _ _ => none
  | .drw _ _ _ => none
  | .skp _ => none
  | .sknp _ => none
  | .ldVxDt _ => none
  | .ldVxK _ => none
  | .ldDtVx _ => none
  | .ldStVx _ => none
  | .addI _ => none
  | .ldF _ => none
  | .ldB _ => none
  | .ldMemVx _ => none
  | .ldVxMem _ => none
  | .scd _ => none
  | .scu _ => none
  | .scr => none
  | .scl => none
  | .low => none
  | .high => none
  | .saveRange _ _ => none
  | .loadRange _ _ => none
  | .ldILong => none
  | .plane _ => none
  | .audio => none
  | .ldHf _ => none
  | .pitch _ => none
  | .ldRVx _ => none
  | .ldVxR _ => none

/-- CLASS (R126). -/
def Mn.cls : Mn → Mode → Cls
  | .lda, _ => .r
  | .ldx, _ => .r
  | .ldy, _ => .r
  | .adc, _ => .r
  | .sbc, _ => .r
  | .and, _ => .r
  | .ora, _ => .r
  | .eor, _ => .r
  | .cmp, _ => .r
  | .cpx, _ => .r
  | .cpy, _ => .r
  | .bit, _ => .r
  | .sta, _ => .w
  | .stx, _ => .w
  | .sty, _ => .w
  | .clc, _ => .imp
  | .cld, _ => .imp
  | .cli, _ => .imp
  | .clv, _ => .imp
  | .sec, _ => .imp
  | .sed, _ => .imp
  | .sei, _ => .imp
  | .nop, _ => .imp
  | .tax, _ => .imp
  | .tay, _ => .imp
  | .tsx, _ => .imp
  | .txa, _ => .imp
  | .txs, _ => .imp
  | .tya, _ => .imp
  | .inx, _ => .imp
  | .iny, _ => .imp
  | .dex, _ => .imp
  | .dey, _ => .imp
  | .bcc, _ => .br
  | .bcs, _ => .br
  | .beq, _ => .br
  | .bmi, _ => .br
  | .bne, _ => .br
  | .bpl, _ => .br
  | .bvc, _ => .br
  | .bvs, _ => .br
  | .brk, _ => .special
  | .rti, _ => .special
  | .rts, _ => .special
  | .jsr, _ => .special
  | .jmp, _ => .special
  | .pha, _ => .special
  | .php, _ => .special
  | .pla, _ => .special
  | .plp, _ => .special
  | .asl, .acc => .acc
  | .asl, _ => .m
  | .lsr, .acc => .acc
  | .lsr, _ => .m
  | .rol, .acc => .acc
  | .rol, _ => .m
  | .ror, .acc => .acc
  | .ror, _ => .m
  | .inc, _ => .m
  | .dec, _ => .m

/-- The length in bytes an addressing mode gives an instruction (R120, R121). -/
def Mode.length : Mode → Nat
  | .imp => 1
  | .acc => 1
  | .imm => 2
  | .zp => 2
  | .zpx => 2
  | .zpy => 2
  | .abs => 3
  | .abx => 3
  | .aby => 3
  | .izx => 2
  | .izy => 2
  | .rel => 2
  | .ind => 3

/-! ## CHIP-8 family -/

/-- The rows of R135 and R136 with `top` = 0. -/
def decodeTop0 (a : Arch) (op : Word) : Option Instr :=
  if op = 0x00E0 then some .cls
  else if op = 0x00EE then some .ret
  else if a = .xochip then
    if op.extractLsb' 4 12 = 0x00C then some (.scd (opN op))
    else if op.extractLsb' 4 12 = 0x00D then some (.scu (opN op))
    else if op = 0x00FB then some .scr
    else if op = 0x00FC then some .scl
    else if op = 0x00FE then some .low
    else if op = 0x00FF then some .high
    else none
  else none

/-- The rows with `top` = 5. -/
def decodeTop5 (a : Arch) (op : Word) : Option Instr :=
  if opN op = 0x0 then some (.seReg (opX op) (opY op))
  else if a = .xochip then
    if opN op = 0x2 then some (.saveRange (opX op) (opY op))
    else if opN op = 0x3 then some (.loadRange (opX op) (opY op))
    else none
  else none

/-- The rows with `top` = 8. -/
def decodeTop8 (op : Word) : Option Instr :=
  if opN op = 0x0 then some (.ldReg (opX op) (opY op))
  else if opN op = 0x1 then some (.orReg (opX op) (opY op))
  else if opN op = 0x2 then some (.andReg (opX op) (opY op))
  else if opN op = 0x3 then some (.xorReg (opX op) (opY op))
  else if opN op = 0x4 then some (.addReg (opX op) (opY op))
  else if opN op = 0x5 then some (.subReg (opX op) (opY op))
  else if opN op = 0x6 then some (.shrReg (opX op) (opY op))
  else if opN op = 0x7 then some (.subnReg (opX op) (opY op))
  else if opN op = 0xE then some (.shlReg (opX op) (opY op))
  else none

/-- The rows with `top` = E. -/
def decodeTopE (op : Word) : Option Instr :=
  if opNN op = 0x9E then some (.skp (opX op))
  else if opNN op = 0xA1 then some (.sknp (opX op))
  else none

/-- The rows with `top` = F that both architectures have (R135). -/
def decodeTopFBase (op : Word) : Option Instr :=
  if opNN op = 0x07 then some (.ldVxDt (opX op))
  else if opNN op = 0x0A then some (.ldVxK (opX op))
  else if opNN op = 0x15 then some (.ldDtVx (opX op))
  else if opNN op = 0x18 then some (.ldStVx (opX op))
  else if opNN op = 0x1E then some (.addI (opX op))
  else if opNN op = 0x29 then some (.ldF (opX op))
  else if opNN op = 0x33 then some (.ldB (opX op))
  else if opNN op = 0x55 then some (.ldMemVx (opX op))
  else if opNN op = 0x65 then some (.ldVxMem (opX op))
  else none

/-- The rows with `top` = F that only XOCHIP has (R136). -/
def decodeTopFExt (op : Word) : Option Instr :=
  if op = 0xF000 then some .ldILong
  else if op = 0xF002 then some .audio
  else if opNN op = 0x01 then some (.plane (opX op))
  else if opNN op = 0x30 then some (.ldHf (opX op))
  else if opNN op = 0x3A then some (.pitch (opX op))
  else if opNN op = 0x75 then some (.ldRVx (opX op))
  else if opNN op = 0x85 then some (.ldVxR (opX op))
  else none

/-- The rows with `top` = F. -/
def decodeTopF (a : Arch) (op : Word) : Option Instr :=
  match decodeTopFBase op with
  | some i => some i
  | none => if a = .xochip then decodeTopFExt op else none

/-- The row of R135 or R136 that a CHIP-8 word matches on an architecture: dispatch on the high nibble,
then on further nibbles (R322). -/
def decodeC8Row (a : Arch) (op : Word) : Option Instr :=
  match (opTop op).toNat with
  | 0x0 => decodeTop0 a op
  | 0x1 => some (.jp (opNNN op))
  | 0x2 => some (.call (opNNN op))
  | 0x3 => some (.seImm (opX op) (opNN op))
  | 0x4 => some (.sneImm (opX op) (opNN op))
  | 0x5 => decodeTop5 a op
  | 0x6 => some (.ldImm (opX op) (opNN op))
  | 0x7 => some (.addImm (opX op) (opNN op))
  | 0x8 => decodeTop8 op
  | 0x9 => if opN op = 0x0 then some (.sneReg (opX op) (opY op)) else none
  | 0xA => some (.ldI (opNNN op))
  | 0xB => some (.jpV0 (opNNN op))
  | 0xC => some (.rnd (opX op) (opNN op))
  | 0xD => some (.drw (opX op) (opY op) (opN op))
  | 0xE => decodeTopE op
  | _ => decodeTopF a op

/-- The instruction of a CHIP-8 word, or unknown (R137). -/
def decodeC8 (a : Arch) (op : Word) : Except DecodeError Instr :=
  match decodeC8Row a op with
  | some i => .ok i
  | none => .error (.unknownOpcode op)

/-! ## Both families -/

/-- The instruction at the head of a list of bytes in memory order, and the bytes after its opcode. The operand
bytes of a 6502 instruction and the second word of `F000 NNNN` are read during execution, so they stay in
the rest. -/
def decode (a : Arch) : List Byte → Except DecodeError (Instr × List Byte)
  | [] => .error .truncated
  | [b] =>
    if a.is65 then (decode65 b).map fun i => (i, [])
    else .error .truncated
  | b0 :: b1 :: rest =>
    if a.is65 then (decode65 b0).map fun i => (i, b1 :: rest)
    else (decodeC8 a (mkWord b0 b1)).map fun i => (i, rest)

/-- The length in bytes of an instruction (R120, R130): 4 for `F000 NNNN`, 2 for every other CHIP-8 row. -/
def Instr.length (i : Instr) : Nat :=
  match i.m65 with
  | some (_, mode) => mode.length
  | none => if i = .ldILong then 4 else 2

/-! ## The encoder -/

/-- The opcode byte of a 6502 row (R125), none on a CHIP-8 row. -/
def encode65 : Instr → Option Byte
  | .brk => some 0x00
  | .oraIzx => some 0x01
  | .oraZp => some 0x05
  | .aslZp => some 0x06
  | .php => some 0x08
  | .oraImm => some 0x09
  | .aslAcc => some 0x0A
  | .oraAbs => some 0x0D
  | .aslAbs => some 0x0E
  | .bpl => some 0x10
  | .oraIzy => some 0x11
  | .oraZpx => some 0x15
  | .aslZpx => some 0x16
  | .clc => some 0x18
  | .oraAby => some 0x19
  | .oraAbx => some 0x1D
  | .aslAbx => some 0x1E
  | .jsr => some 0x20
  | .andIzx => some 0x21
  | .bitZp => some 0x24
  | .andZp => some 0x25
  | .rolZp => some 0x26
  | .plp => some 0x28
  | .andImm => some 0x29
  | .rolAcc => some 0x2A
  | .bitAbs => some 0x2C
  | .andAbs => some 0x2D
  | .rolAbs => some 0x2E
  | .bmi => some 0x30
  | .andIzy => some 0x31
  | .andZpx => some 0x35
  | .rolZpx => some 0x36
  | .sec => some 0x38
  | .andAby => some 0x39
  | .andAbx => some 0x3D
  | .rolAbx => some 0x3E
  | .rti => some 0x40
  | .eorIzx => some 0x41
  | .eorZp => some 0x45
  | .lsrZp => some 0x46
  | .pha => some 0x48
  | .eorImm => some 0x49
  | .lsrAcc => some 0x4A
  | .jmpAbs => some 0x4C
  | .eorAbs => some 0x4D
  | .lsrAbs => some 0x4E
  | .bvc => some 0x50
  | .eorIzy => some 0x51
  | .eorZpx => some 0x55
  | .lsrZpx => some 0x56
  | .cli => some 0x58
  | .eorAby => some 0x59
  | .eorAbx => some 0x5D
  | .lsrAbx => some 0x5E
  | .rts => some 0x60
  | .adcIzx => some 0x61
  | .adcZp => some 0x65
  | .rorZp => some 0x66
  | .pla => some 0x68
  | .adcImm => some 0x69
  | .rorAcc => some 0x6A
  | .jmpInd => some 0x6C
  | .adcAbs => some 0x6D
  | .rorAbs => some 0x6E
  | .bvs => some 0x70
  | .adcIzy => some 0x71
  | .adcZpx => some 0x75
  | .rorZpx => some 0x76
  | .sei => some 0x78
  | .adcAby => some 0x79
  | .adcAbx => some 0x7D
  | .rorAbx => some 0x7E
  | .staIzx => some 0x81
  | .styZp => some 0x84
  | .staZp => some 0x85
  | .stxZp => some 0x86
  | .dey => some 0x88
  | .txa => some 0x8A
  | .styAbs => some 0x8C
  | .staAbs => some 0x8D
  | .stxAbs => some 0x8E
  | .bcc => some 0x90
  | .staIzy => some 0x91
  | .styZpx => some 0x94
  | .staZpx => some 0x95
  | .stxZpy => some 0x96
  | .tya => some 0x98
  | .staAby => some 0x99
  | .txs => some 0x9A
  | .staAbx => some 0x9D
  | .ldyImm => some 0xA0
  | .ldaIzx => some 0xA1
  | .ldxImm => some 0xA2
  | .ldyZp => some 0xA4
  | .ldaZp => some 0xA5
  | .ldxZp => some 0xA6
  | .tay => some 0xA8
  | .ldaImm => some 0xA9
  | .tax => some 0xAA
  | .ldyAbs => some 0xAC
  | .ldaAbs => some 0xAD
  | .ldxAbs => some 0xAE
  | .bcs => some 0xB0
  | .ldaIzy => some 0xB1
  | .ldyZpx => some 0xB4
  | .ldaZpx => some 0xB5
  | .ldxZpy => some 0xB6
  | .clv => some 0xB8
  | .ldaAby => some 0xB9
  | .tsx => some 0xBA
  | .ldyAbx => some 0xBC
  | .ldaAbx => some 0xBD
  | .ldxAby => some 0xBE
  | .cpyImm => some 0xC0
  | .cmpIzx => some 0xC1
  | .cpyZp => some 0xC4
  | .cmpZp => some 0xC5
  | .decZp => some 0xC6
  | .iny => some 0xC8
  | .cmpImm => some 0xC9
  | .dex => some 0xCA
  | .cpyAbs => some 0xCC
  | .cmpAbs => some 0xCD
  | .decAbs => some 0xCE
  | .bne => some 0xD0
  | .cmpIzy => some 0xD1
  | .cmpZpx => some 0xD5
  | .decZpx => some 0xD6
  | .cld => some 0xD8
  | .cmpAby => some 0xD9
  | .cmpAbx => some 0xDD
  | .decAbx => some 0xDE
  | .cpxImm => some 0xE0
  | .sbcIzx => some 0xE1
  | .cpxZp => some 0xE4
  | .sbcZp => some 0xE5
  | .incZp => some 0xE6
  | .inx => some 0xE8
  | .sbcImm => some 0xE9
  | .nop => some 0xEA
  | .cpxAbs => some 0xEC
  | .sbcAbs => some 0xED
  | .incAbs => some 0xEE
  | .beq => some 0xF0
  | .sbcIzy => some 0xF1
  | .sbcZpx => some 0xF5
  | .incZpx => some 0xF6
  | .sed => some 0xF8
  | .sbcAby => some 0xF9
  | .sbcAbx => some 0xFD
  | .incAbx => some 0xFE
  | .cls => none
  | .ret => none
  | .jp _ => none
  | .call _ => none
  | .seImm _ _ => none
  | .sneImm _ _ => none
  | .seReg _ _ => none
  | .ldImm _ _ => none
  | .addImm _ _ => none
  | .ldReg _ _ => none
  | .orReg _ _ => none
  | .andReg _ _ => none
  | .xorReg _ _ => none
  | .addReg _ _ => none
  | .subReg _ _ => none
  | .shrReg _ _ => none
  | .subnReg _ _ => none
  | .shlReg _ _ => none
  | .sneReg _ _ => none
  | .ldI _ => none
  | .jpV0 _ => none
  | .rnd _ _ => none
  | .drw _ _ _ => none
  | .skp _ => none
  | .sknp _ => none
  | .ldVxDt _ => none
  | .ldVxK _ => none
  | .ldDtVx _ => none
  | .ldStVx _ => none
  | .addI _ => none
  | .ldF _ => none
  | .ldB _ => none
  | .ldMemVx _ => none
  | .ldVxMem _ => none
  | .scd _ => none
  | .scu _ => none
  | .scr => none
  | .scl => none
  | .low => none
  | .high => none
  | .saveRange _ _ => none
  | .loadRange _ _ => none
  | .ldILong => none
  | .plane _ => none
  | .audio => none
  | .ldHf _ => none
  | .pitch _ => none
  | .ldRVx _ => none
  | .ldVxR _ => none

/-- The opcode word of a CHIP-8 row (R135, R136), none on a 6502 row. -/
def encodeC8 : Instr → Option Word
  | .brk => none
  | .oraIzx => none
  | .oraZp => none
  | .aslZp => none
  | .php => none
  | .oraImm => none
  | .aslAcc => none
  | .oraAbs => none
  | .aslAbs => none
  | .bpl => none
  | .oraIzy => none
  | .oraZpx => none
  | .aslZpx => none
  | .clc => none
  | .oraAby => none
  | .oraAbx => none
  | .aslAbx => none
  | .jsr => none
  | .andIzx => none
  | .bitZp => none
  | .andZp => none
  | .rolZp => none
  | .plp => none
  | .andImm => none
  | .rolAcc => none
  | .bitAbs => none
  | .andAbs => none
  | .rolAbs => none
  | .bmi => none
  | .andIzy => none
  | .andZpx => none
  | .rolZpx => none
  | .sec => none
  | .andAby => none
  | .andAbx => none
  | .rolAbx => none
  | .rti => none
  | .eorIzx => none
  | .eorZp => none
  | .lsrZp => none
  | .pha => none
  | .eorImm => none
  | .lsrAcc => none
  | .jmpAbs => none
  | .eorAbs => none
  | .lsrAbs => none
  | .bvc => none
  | .eorIzy => none
  | .eorZpx => none
  | .lsrZpx => none
  | .cli => none
  | .eorAby => none
  | .eorAbx => none
  | .lsrAbx => none
  | .rts => none
  | .adcIzx => none
  | .adcZp => none
  | .rorZp => none
  | .pla => none
  | .adcImm => none
  | .rorAcc => none
  | .jmpInd => none
  | .adcAbs => none
  | .rorAbs => none
  | .bvs => none
  | .adcIzy => none
  | .adcZpx => none
  | .rorZpx => none
  | .sei => none
  | .adcAby => none
  | .adcAbx => none
  | .rorAbx => none
  | .staIzx => none
  | .styZp => none
  | .staZp => none
  | .stxZp => none
  | .dey => none
  | .txa => none
  | .styAbs => none
  | .staAbs => none
  | .stxAbs => none
  | .bcc => none
  | .staIzy => none
  | .styZpx => none
  | .staZpx => none
  | .stxZpy => none
  | .tya => none
  | .staAby => none
  | .txs => none
  | .staAbx => none
  | .ldyImm => none
  | .ldaIzx => none
  | .ldxImm => none
  | .ldyZp => none
  | .ldaZp => none
  | .ldxZp => none
  | .tay => none
  | .ldaImm => none
  | .tax => none
  | .ldyAbs => none
  | .ldaAbs => none
  | .ldxAbs => none
  | .bcs => none
  | .ldaIzy => none
  | .ldyZpx => none
  | .ldaZpx => none
  | .ldxZpy => none
  | .clv => none
  | .ldaAby => none
  | .tsx => none
  | .ldyAbx => none
  | .ldaAbx => none
  | .ldxAby => none
  | .cpyImm => none
  | .cmpIzx => none
  | .cpyZp => none
  | .cmpZp => none
  | .decZp => none
  | .iny => none
  | .cmpImm => none
  | .dex => none
  | .cpyAbs => none
  | .cmpAbs => none
  | .decAbs => none
  | .bne => none
  | .cmpIzy => none
  | .cmpZpx => none
  | .decZpx => none
  | .cld => none
  | .cmpAby => none
  | .cmpAbx => none
  | .decAbx => none
  | .cpxImm => none
  | .sbcIzx => none
  | .cpxZp => none
  | .sbcZp => none
  | .incZp => none
  | .inx => none
  | .sbcImm => none
  | .nop => none
  | .cpxAbs => none
  | .sbcAbs => none
  | .incAbs => none
  | .beq => none
  | .sbcIzy => none
  | .sbcZpx => none
  | .incZpx => none
  | .sed => none
  | .sbcAby => none
  | .sbcAbx => none
  | .incAbx => none
  | .cls => some (0x00E0)
  | .ret => some (0x00EE)
  | .jp nnn => some (0x1#4 ++ nnn)
  | .call nnn => some (0x2#4 ++ nnn)
  | .seImm x nn => some (0x3#4 ++ x ++ nn)
  | .sneImm x nn => some (0x4#4 ++ x ++ nn)
  | .seReg x y => some (0x5#4 ++ x ++ y ++ 0x0#4)
  | .ldImm x nn => some (0x6#4 ++ x ++ nn)
  | .addImm x nn => some (0x7#4 ++ x ++ nn)
  | .ldReg x y => some (0x8#4 ++ x ++ y ++ 0x0#4)
  | .orReg x y => some (0x8#4 ++ x ++ y ++ 0x1#4)
  | .andReg x y => some (0x8#4 ++ x ++ y ++ 0x2#4)
  | .xorReg x y => some (0x8#4 ++ x ++ y ++ 0x3#4)
  | .addReg x y => some (0x8#4 ++ x ++ y ++ 0x4#4)
  | .subReg x y => some (0x8#4 ++ x ++ y ++ 0x5#4)
  | .shrReg x y => some (0x8#4 ++ x ++ y ++ 0x6#4)
  | .subnReg x y => some (0x8#4 ++ x ++ y ++ 0x7#4)
  | .shlReg x y => some (0x8#4 ++ x ++ y ++ 0xE#4)
  | .sneReg x y => some (0x9#4 ++ x ++ y ++ 0x0#4)
  | .ldI nnn => some (0xA#4 ++ nnn)
  | .jpV0 nnn => some (0xB#4 ++ nnn)
  | .rnd x nn => some (0xC#4 ++ x ++ nn)
  | .drw x y n => some (0xD#4 ++ x ++ y ++ n)
  | .skp x => some (0xE#4 ++ x ++ 0x9E#8)
  | .sknp x => some (0xE#4 ++ x ++ 0xA1#8)
  | .ldVxDt x => some (0xF#4 ++ x ++ 0x07#8)
  | .ldVxK x => some (0xF#4 ++ x ++ 0x0A#8)
  | .ldDtVx x => some (0xF#4 ++ x ++ 0x15#8)
  | .ldStVx x => some (0xF#4 ++ x ++ 0x18#8)
  | .addI x => some (0xF#4 ++ x ++ 0x1E#8)
  | .ldF x => some (0xF#4 ++ x ++ 0x29#8)
  | .ldB x => some (0xF#4 ++ x ++ 0x33#8)
  | .ldMemVx x => some (0xF#4 ++ x ++ 0x55#8)
  | .ldVxMem x => some (0xF#4 ++ x ++ 0x65#8)
  | .scd n => some (0x00C#12 ++ n)
  | .scu n => some (0x00D#12 ++ n)
  | .scr => some (0x00FB)
  | .scl => some (0x00FC)
  | .low => some (0x00FE)
  | .high => some (0x00FF)
  | .saveRange x y => some (0x5#4 ++ x ++ y ++ 0x2#4)
  | .loadRange x y => some (0x5#4 ++ x ++ y ++ 0x3#4)
  | .ldILong => some (0xF000)
  | .plane n => some (0xF#4 ++ n ++ 0x01#8)
  | .audio => some (0xF002)
  | .ldHf x => some (0xF#4 ++ x ++ 0x30#8)
  | .pitch x => some (0xF#4 ++ x ++ 0x3A#8)
  | .ldRVx x => some (0xF#4 ++ x ++ 0x75#8)
  | .ldVxR x => some (0xF#4 ++ x ++ 0x85#8)

/-- The opcode of an instruction as the bytes in memory order: one byte on the 6502 family, two bytes,
the more significant first, on the CHIP-8 family (R86). -/
def encode (i : Instr) : List Byte :=
  match encode65 i, encodeC8 i with
  | some b, _ => [b]
  | none, some w => [hiByte w, loByte w]
  | none, none => []

/-! ## One word of the opcode table, as the host numbers it -/

/-- The family a word of the opcode table belongs to. The table gives a 6502 row one byte and a CHIP-8 row
one 16-bit word, so the number of bits tells them apart; 16 bits that are no CHIP-8 row are read as a
6502 opcode byte and its operand byte; log 23. -/
def tableWordIs65 (nbits w : Nat) : Bool :=
  if nbits ≤ 8 then true
  else if nbits ≤ 16 then (decodeC8Row .xochip (BitVec.ofNat 16 w)).isNone
  else if nbits ≤ 24 then true
  else false

/-- The bytes of a table word in memory order, four of them, the bits above `nbits` zero: the 6502 family
stores bits 7..0 first (R85), the CHIP-8 family each 16-bit word big-endian (R86). -/
def tableWordBytes (nbits w : Nat) : List Byte :=
  let v := w % 2 ^ nbits
  let b := fun k => BitVec.ofNat 8 (v / 2 ^ (8 * k))
  if tableWordIs65 nbits w then [b 0, b 1, b 2, b 3] else [b 1, b 0, b 3, b 2]

/-- The architecture whose decoder reads a table word: M6502, or XOCHIP, which has every CHIP-8 row. -/
def tableWordArch (nbits w : Nat) : Arch :=
  if tableWordIs65 nbits w then .m6502 else .xochip

/-- The instruction the decoder reads from a word of the opcode table. -/
def decodeTableWord (nbits w : Nat) : Option Instr :=
  match decode (tableWordArch nbits w) (tableWordBytes nbits w) with
  | .ok (i, _) => some i
  | .error _ => none

end Sys2Proof
end

