-- ==== Sys2Proof/Machine/Memory.lean ====
section
/-! DEFINITION. The bus memory as sparse plain data: what `PowerOn` leaves in memory (20_memory.md R91, R93,
R94; 70_reset_and_hazards.md R470), and the one byte read and write over it. Every listed cell differs from
the power-on byte of its address and the addresses rise, so equal memories are equal lists. -/

namespace Sys2Proof.Machine

/-- FONT_BASE (D35). -/
def fontBase : Nat := 0x000

/-- BIGFONT_BASE (D35). -/
def bigfontBase : Nat := 0x050

/-- The 4 x 5 hexadecimal font, glyphs 0 to F, five bytes each (R93). -/
def fontBytes : List Byte :=
  [0xF0, 0x90, 0x90, 0x90, 0xF0,  0x20, 0x60, 0x20, 0x20, 0x70,
   0xF0, 0x10, 0xF0, 0x80, 0xF0,  0xF0, 0x10, 0xF0, 0x10, 0xF0,
   0x90, 0x90, 0xF0, 0x10, 0x10,  0xF0, 0x80, 0xF0, 0x10, 0xF0,
   0xF0, 0x80, 0xF0, 0x90, 0xF0,  0xF0, 0x10, 0x20, 0x40, 0x40,
   0xF0, 0x90, 0xF0, 0x90, 0xF0,  0xF0, 0x90, 0xF0, 0x10, 0xF0,
   0xF0, 0x90, 0xF0, 0x90, 0x90,  0xE0, 0x90, 0xE0, 0x90, 0xE0,
   0xF0, 0x80, 0x80, 0x80, 0xF0,  0xE0, 0x90, 0x90, 0x90, 0xE0,
   0xF0, 0x80, 0xF0, 0x80, 0xF0,  0xF0, 0x80, 0xF0, 0x80, 0x80]

/-- What `PowerOn` leaves at an address (R470), and so what an unlisted address reads as: 0, but for the font
of the CHIP-8 family and the big font of XOCHIP. -/
def powerOnByte (c : Config) (a : Nat) : Byte :=
  if c.arch.is65 then 0
  else if a < 80 then fontBytes.getD (a - fontBase) 0
  else if c.arch = .xochip ∧ bigfontBase ≤ a ∧ a < bigfontBase + 160 then
    c.bigfont.toList.getD (a - bigfontBase) 0
  else 0

/-- The cells of memory that differ from `powerOnByte`. -/
abbrev Mem := List Host.Cell

/-- The byte at an address. -/
def Mem.read (c : Config) (m : Mem) (a : Nat) : Byte :=
  match m with
  | [] => powerOnByte c a
  | (k, v) :: rest => if k = a then v else Mem.read c rest a

/-- Put a cell before the first one of a higher address. -/
def Mem.insert (m : Mem) (a : Nat) (v : Byte) : Mem :=
  match m with
  | [] => [(a, v)]
  | (k, w) :: rest => if a < k then (a, v) :: (k, w) :: rest else (k, w) :: Mem.insert rest a v

/-- Forget what is listed at an address. -/
def Mem.erase (m : Mem) (a : Nat) : Mem := m.filter fun cell => decide (cell.1 ≠ a)

/-- Store a byte; storing the power-on byte lists nothing. -/
def Mem.write (c : Config) (m : Mem) (a : Nat) (v : Byte) : Mem :=
  if v = powerOnByte c a then Mem.erase m a else Mem.insert (Mem.erase m a) a v

/-- The canonical form: addresses strictly rising and inside the memory, and no cell equal to what an
unlisted address reads as. -/
def Mem.wf (c : Config) (m : Mem) : Bool :=
  decide (m.Pairwise fun p q => p.1 < q.1) &&
    m.all fun cell => decide (cell.1 < c.memSize) && decide (cell.2 ≠ powerOnByte c cell.1)

end Sys2Proof.Machine
end

