-- ==== Sys2Proof/Machine/State.lean ====
section
/-! DEFINITION. Every piece of state the spec gives an instance (10_state.md R20 to R59), as plain data, the
reasons a step of the MODEL can stop, and the state after reset.

One record serves the four architectures. The state of the 6502 family stands in `m65`, that of the CHIP-8
family in `c8`, that of XOCHIP alone in `xo`; the parts an architecture does not have stay at their reset
values (R20, log 20). -/

namespace Sys2Proof.Machine

/-! ## 6502 family -/

/-- `P`, seven independent one-bit flags (R27). -/
structure Flags where
  n : Bool
  v : Bool
  b : Bool
  d : Bool
  i : Bool
  z : Bool
  c : Bool
deriving DecidableEq, Repr

/-- The registers of the 6502 family (R24 to R31). -/
structure Cpu65 where
  /-- `A` (R24). -/
  a : Byte
  /-- `X` (R24). -/
  x : Byte
  /-- `Y` (R24). -/
  y : Byte
  /-- `S`, the stack pointer (R25). -/
  s : Byte
  /-- `PC` (R26). -/
  pc : Word
  /-- `P` (R27). -/
  p : Flags
  /-- `IR`, the latched opcode (R29). -/
  ir : Byte
  /-- `T`, the micro-cycle counter (R30). -/
  t : BitVec 3
  /-- `ADL` (R31). -/
  adl : Byte
  /-- `ADH` (R31). -/
  adh : Byte
  /-- `PTR` (R31). -/
  ptr : Byte
  /-- `DATA` (R31). -/
  data : Byte
  /-- `PGX` (R31). -/
  pgx : Bool
deriving DecidableEq, Repr

/-! ## CHIP-8 family -/

/-- `FB`: 64 rows of 128 cells, one bit a plane (R47, R54). CHIP8 uses columns 0 to 63 of rows 0 to 31 and
plane 0; the rest stays 0 there (log 12). -/
abbrev FrameBuf := Vector (Vector (BitVec 4) 128) 64

/-- The state of the CHIP-8 family (R40 to R47). -/
structure CpuC8 where
  /-- `V[0..15]` (R40). -/
  v : Vector Byte 16
  /-- `I` (R41). -/
  i : Word
  /-- `PC` (R42). -/
  pc : Word
  /-- `SP`, the number of stack entries in use (R43). -/
  sp : Byte
  /-- `STACK` (R43); CHIP8 uses the first 12 entries (log 13). -/
  stack : Vector Word 16
  /-- `DT` (R44). -/
  dt : Byte
  /-- `ST` (R44). -/
  st : Byte
  /-- `OP` (R45). -/
  op : Word
  /-- `KEY[0..15]` (R46). -/
  key : Vector Bool 16
  /-- `KW_WAIT` (R46). -/
  kwWait : Bool
  /-- `KW_VALID` (R46). -/
  kwValid : Bool
  /-- `KW_INDEX` (R46). -/
  kwIndex : BitVec 4
  /-- `FB` (R47, R54). -/
  fb : FrameBuf
deriving DecidableEq, Repr

/-! ## Snapshots and logs -/

/-- The register snapshot of the 6502 family (R77). -/
structure Dump65 where
  a : Byte
  x : Byte
  y : Byte
  s : Byte
  pc : Word
  p : Flags
  ir : Byte
  t : BitVec 3
deriving DecidableEq, Repr

/-- The register snapshot of the CHIP-8 family (R77); `stack` is `STACK[0..SP-1]`. -/
structure DumpC8 where
  v : Vector Byte 16
  i : Word
  pc : Word
  sp : Byte
  stack : List Word
  dt : Byte
  st : Byte
deriving DecidableEq, Repr

/-- What XOCHIP adds to the snapshot (R77). -/
structure DumpXo where
  plane : BitVec 4
  hires : Bool
  pitch : Byte
  cycles : Nat
  halted : Bool
deriving DecidableEq, Repr

/-- `dumpState()` (R77), by architecture. -/
inductive Dump where
  | m65 (d : Dump65)
  | chip8 (d : DumpC8)
  | xochip (d : DumpC8) (x : DumpXo)
deriving DecidableEq, Repr

/-- The kinds of the SPEC's faults (60_exceptions.md R442). They are logged and never stop the machine. -/
inductive FaultKind where
  | outOfBoundsRead
  | outOfBoundsWrite
  | illegalOpcode
  | unknownOpcode
  | stackOverflow
  | stackUnderflow
deriving DecidableEq, Repr

/-- One record of `FAULTLOG` (R441). -/
structure FaultRecord where
  kind : FaultKind
  arch : Arch
  /-- `IR` with eight zero bits above it, or `OP` (log 19). -/
  opcode : Word
  pc : Word
  regs : Dump
  /-- The out-of-range address of a bus fault. -/
  info : Option Nat
deriving DecidableEq, Repr

/-- One operation on the bus port of 20_memory.md R80: address, data, and the flag `bus_fault`. -/
inductive BusOp where
  | read (addr : Nat) (data : Byte) (fault : Bool)
  | write (addr : Nat) (data : Byte) (fault : Bool)
deriving DecidableEq, Repr

/-! ## XOCHIP -/

/-- The state of XOCHIP alone (R50 to R59, R23). -/
structure XoState where
  /-- `PLANE` (R50). -/
  plane : BitVec 4
  /-- `HIRES` (R51). -/
  hires : Bool
  /-- `PITCH` (R52). -/
  pitch : Byte
  /-- `PATTERN[0..15]` (R56). -/
  pattern : Vector Byte 16
  /-- `FLAGS[0..15]` (R53). -/
  flags : Vector Byte 16
  /-- `BP_EN` (R59). -/
  bpEn : Bool
  /-- `BP_ADDR` (R59). -/
  bpAddr : Word
  /-- `HALTED` (R59). -/
  halted : Bool
  /-- `CYCLES` (R59). -/
  cycles : Nat
  /-- `DEBUGLOG` (R23). -/
  debugLog : List (Nat × Dump)
deriving DecidableEq, Repr

/-! ## The host's operations -/

/-- The interface operations that change state (R70); the reads are functions of Machine/Interface.lean. -/
inductive HostOp where
  | powerOn
  | reset
  | tick (steps : Nat)
  | loggedStep (steps : Nat)
  | decayTimers
  | loadProgram (bytes : List Byte)
  | setKeyState (index : Nat) (pressed : Bool)
  | setBreakpoint (address : Nat)
  | clearBreakpoint
deriving DecidableEq, Repr

/-! ## The machine -/

/-- The state of one instance. The last three fields are the model's own (log 2, 4, 5). -/
structure State where
  /-- The instance parameters (00_scope.md R6). -/
  cfg : Config
  /-- `MEM` (R21). -/
  mem : Mem
  m65 : Cpu65
  c8 : CpuC8
  xo : XoState
  /-- `FAULTLOG` (R22). -/
  faultLog : List FaultRecord
  /-- The bus operations made, in order (R80, R97); the model's own. -/
  busTrace : List BusOp
  /-- The host operations still to come; the model's own. -/
  hostQueue : List HostOp
  /-- How many bytes of the stream RAND were drawn; the model's own. -/
  randDraws : Nat
deriving DecidableEq, Repr

/-- Why a step of the MODEL stops in a fault. The spec's own faults are records of `FAULTLOG`, not these. -/
inductive Fault where
  /-- `T` names no row of the latched instruction's sequence, or no legal opcode is latched while `T` is
  not 0. Raised by the 6502 engine in a state that no run reaches (40_m65_engine.md R191). Safe. -/
  | strayMicroCycle
deriving DecidableEq, Repr

/-- Why a step of the model is refused. -/
inductive Refusal where
  /-- The instruction has no meaning yet; raised by no arm of `exec`. Safe. -/
  | notModelled (mnemonic : String)
  /-- `setKeyState` with an index above 15, outside the operation's domain (R76, U12). Safe. -/
  | keyIndexOutOfRange
  /-- A host operation the instance's architecture does not provide (R70). Safe. -/
  | operationNotProvided
deriving DecidableEq, Repr

/-! ## Reset -/

/-- The 6502 registers after `Reset` (R471), the reset vector given. -/
def Cpu65.afterReset (vector : Word) : Cpu65 where
  a := 0
  x := 0
  y := 0
  s := 0xFD
  pc := vector
  p := { n := false, v := false, b := false, d := false, i := true, z := false, c := false }
  ir := 0
  t := 0
  adl := 0
  adh := 0
  ptr := 0
  data := 0
  pgx := false

/-- A framebuffer with every cell 0. -/
def FrameBuf.blank : FrameBuf := Vector.replicate 64 (Vector.replicate 128 0)

/-- The CHIP-8 family's registers after `Reset` (R471). -/
def CpuC8.afterReset : CpuC8 where
  v := Vector.replicate 16 0
  i := 0
  pc := 0x200
  sp := 0
  stack := Vector.replicate 16 0
  dt := 0
  st := 0
  op := 0
  key := Vector.replicate 16 false
  kwWait := false
  kwValid := false
  kwIndex := 0
  fb := FrameBuf.blank

/-- The XOCHIP state after `PowerOn` (R470, R471). -/
def XoState.afterPowerOn : XoState where
  plane := 1
  hires := false
  pitch := 64
  pattern := Vector.replicate 16 0
  flags := Vector.replicate 16 0
  bpEn := false
  bpAddr := 0
  halted := false
  cycles := 0
  debugLog := []

/-- The state of a freshly built instance (R470): memory at its power-on contents, logs empty, every register at
its value after `Reset`. Memory is all zero on the 6502 family, so the vector read is 0x0000. -/
def State.powerOn (c : Config) : State where
  cfg := c
  mem := []
  m65 := Cpu65.afterReset 0
  c8 := CpuC8.afterReset
  xo := XoState.afterPowerOn
  faultLog := []
  busTrace := []
  hostQueue := []
  randDraws := 0

/-- The machine right after power-on and reset; the instance is an M6502 at the spec's default parameters (log 1). -/
def State.reset : State := State.powerOn (Config.standard .m6502)

end Sys2Proof.Machine
end

