-- ==== Sys2Proof/Machine/Flags.lean ====
section
/-! DEFINITION. Every flag computation of the 6502 family (10_state.md R27, 42_m65_alu.md R240 to R260). -/

namespace Sys2Proof.Machine

/-- `setNZ(v)` (00_scope.md R10). -/
def Flags.setNZ (p : Flags) (v : Byte) : Flags := { p with z := decide (v = 0), n := v.msb }

/-- `pack(P, b)` (R27): N V 1 b D I Z C from bit 7 down. -/
def Flags.pack (p : Flags) (b : Bool) : Byte :=
  BitVec.ofBool p.n ++ BitVec.ofBool p.v ++ 1#1 ++ BitVec.ofBool b ++
    BitVec.ofBool p.d ++ BitVec.ofBool p.i ++ BitVec.ofBool p.z ++ BitVec.ofBool p.c

/-- `unpack(v)` (R27): `P.B` and bits 5 and 4 of `v` are left out. -/
def Flags.unpack (p : Flags) (v : Byte) : Flags where
  n := v.getLsbD 7
  v := v.getLsbD 6
  b := p.b
  d := v.getLsbD 3
  i := v.getLsbD 2
  z := v.getLsbD 1
  c := v.getLsbD 0

/-- The 9-bit sum `zext(A) + zext(m) + P.C` of `ADC` (R241). -/
def adcSum (a m : Byte) (carry : Bool) : Nat := a.toNat + m.toNat + carry.toNat

/-- The result byte of `ADC`: `t[7:0]` (R241). -/
def adcResult (a m : Byte) (carry : Bool) : Byte := BitVec.ofNat 8 (adcSum a m carry)

/-- The flags after `ADC`, from the old `A` (R241); `P.D` plays no part (R242). -/
def Flags.afterAdc (p : Flags) (a m : Byte) : Flags :=
  let r := adcResult a m p.c
  Flags.setNZ { p with c := decide (256 ≤ adcSum a m p.c), v := ((a ^^^ r) &&& (m ^^^ r)).msb } r

/-- The flags after a compare of `a` with `m` (R247 to R249); `P.V` is not written. -/
def Flags.afterCompare (p : Flags) (a m : Byte) : Flags :=
  Flags.setNZ { p with c := decide (m.toNat ≤ a.toNat) } (a - m)

/-- The flags after `BIT` (R250). -/
def Flags.afterBit (p : Flags) (a m : Byte) : Flags :=
  { p with z := decide (a &&& m = 0), n := m.getLsbD 7, v := m.getLsbD 6 }

/-- `ASL` (R257): the result and the flags. -/
def aslOp (p : Flags) (m : Byte) : Byte × Flags :=
  let r := m <<< 1
  (r, Flags.setNZ { p with c := m.getLsbD 7 } r)

/-- `LSR` (R258). -/
def lsrOp (p : Flags) (m : Byte) : Byte × Flags :=
  let r := m >>> 1
  (r, Flags.setNZ { p with c := m.getLsbD 0 } r)

/-- `ROL` (R259): the old carry enters bit 0. -/
def rolOp (p : Flags) (m : Byte) : Byte × Flags :=
  let r := m <<< 1 ||| flagByte p.c
  (r, Flags.setNZ { p with c := m.getLsbD 7 } r)

/-- `ROR` (R260): the old carry enters bit 7. -/
def rorOp (p : Flags) (m : Byte) : Byte × Flags :=
  let r := m >>> 1 ||| flagByte p.c <<< 7
  (r, Flags.setNZ { p with c := m.getLsbD 0 } r)

/-- `INC` (R251). -/
def incOp (p : Flags) (m : Byte) : Byte × Flags := (m + 1, Flags.setNZ p (m + 1))

/-- `DEC` (R252). -/
def decOp (p : Flags) (m : Byte) : Byte × Flags := (m - 1, Flags.setNZ p (m - 1))

end Sys2Proof.Machine
end

