-- ==== Sys2Proof/Machine/Ops.lean ====
section
/-! DEFINITION. The named operations every instruction is built from: the register snapshot (10_state.md R77),
the fault report (60_exceptions.md R440, R441), the bus contract (20_memory.md R81, R82), the micro-cycle rows of
the 6502 (40_m65_engine.md R160 to R167), the software trap's entry and return (43_m65_control.md R296, R294),
and register access of the CHIP-8 family. -/

namespace Sys2Proof.Machine

/-! ## Snapshot and fault report -/

/-- The CHIP-8 part of the snapshot (R77). -/
def CpuC8.dump (c : CpuC8) : DumpC8 where
  v := c.v
  i := c.i
  pc := c.pc
  sp := c.sp
  stack := c.stack.toList.take c.sp.toNat
  dt := c.dt
  st := c.st

/-- `dumpState()` (R77); it changes no state. -/
def State.dumpState (s : State) : Dump :=
  match s.cfg.arch with
  | .m6502 | .n6502 =>
    .m65 { a := s.m65.a, x := s.m65.x, y := s.m65.y, s := s.m65.s, pc := s.m65.pc, p := s.m65.p,
           ir := s.m65.ir, t := s.m65.t }
  | .chip8 => .chip8 s.c8.dump
  | .xochip =>
    .xochip s.c8.dump { plane := s.xo.plane, hires := s.xo.hires, pitch := s.xo.pitch,
                        cycles := s.xo.cycles, halted := s.xo.halted }

/-- The number of a fault kind (R442). -/
def FaultKind.code : FaultKind → Nat
  | .outOfBoundsRead => 1
  | .outOfBoundsWrite => 2
  | .illegalOpcode => 3
  | .unknownOpcode => 4
  | .stackOverflow => 5
  | .stackUnderflow => 6

/-- The record `raise K(info)` appends, taken at the moment of the raise (R441). -/
def State.faultRecord (s : State) (k : FaultKind) (info : Option Nat) : FaultRecord where
  kind := k
  arch := s.cfg.arch
  opcode := if s.cfg.arch.is65 then zext8 s.m65.ir else s.c8.op
  pc := if s.cfg.arch.is65 then s.m65.pc else s.c8.pc
  regs := s.dumpState
  info := info

/-- `raise K(info)` (R440): one record and nothing else; execution goes on. -/
def State.raise (s : State) (k : FaultKind) (info : Option Nat) : State :=
  { s with faultLog := s.faultLog ++ [s.faultRecord k info] }

/-! ## The bus -/

/-- The content of an address of `MEM`, without a bus operation. -/
def State.peek (s : State) (a : Nat) : Byte := Mem.read s.cfg s.mem a

/-- Record one bus operation. -/
def State.note (s : State) (o : BusOp) : State := { s with busTrace := s.busTrace ++ [o] }

/-- The byte `MemRead(addr, 1)` returns (R81). -/
def State.readVal (s : State) (a : Nat) : Byte := if a < s.cfg.memSize then s.peek a else 0

/-- The state after `MemRead(addr, 1)` (R81): the bus operation, and one record when out of range. -/
def State.afterRead (s : State) (a : Nat) : State :=
  if a < s.cfg.memSize then s.note (.read a (s.peek a) false)
  else (s.note (.read a 0 true)).raise .outOfBoundsRead (some a)

/-- `MemWrite(addr, 1, v)` (R82). -/
def State.memWrite (s : State) (a : Nat) (v : Byte) : State :=
  if a < s.cfg.memSize then
    { s.note (.write a v false) with mem := Mem.write s.cfg s.mem a v }
  else (s.note (.write a v true)).raise .outOfBoundsWrite (some a)

/-- The value of the big-endian `MemRead(addr, 2)` of the CHIP-8 family (R10, R86). -/
def State.readVal2 (s : State) (a : Nat) : Word := mkWord (s.readVal a) (s.readVal (a + 1))

/-- The state after `MemRead(addr, 2)`: two bus reads, the lower address first (R86). -/
def State.afterRead2 (s : State) (a : Nat) : State := (s.afterRead a).afterRead (a + 1)

/-! ## Rows of a 6502 micro-cycle -/

/-- Change the 6502 registers. -/
def State.upd65 (s : State) (f : Cpu65 → Cpu65) : State := { s with m65 := f s.m65 }

/-- The end of a row that does not finish the instruction (R160). -/
def Cpu65.next (c : Cpu65) : Cpu65 := { c with t := c.t + 1 }

/-- `Finish` (R163). -/
def Cpu65.finish (c : Cpu65) : Cpu65 := { c with t := 0 }

/-- `AD = ADH:ADL` (R31). -/
def Cpu65.ad (c : Cpu65) : Word := mkWord c.adh c.adl

/-- The stack address `0x01:S` (R166, R167). -/
def Cpu65.stackAddr (c : Cpu65) : Word := mkWord 0x01 c.s

/-- A row whose bus operation is a read: the byte read and the registers give the new registers. -/
def State.readRow (s : State) (a : Word) (f : Byte → Cpu65 → Cpu65) : State :=
  (s.afterRead a.toNat).upd65 (f (s.readVal a.toNat))

/-- A row whose bus operation is a write. -/
def State.writeRow (s : State) (a : Word) (v : Byte) (f : Cpu65 → Cpu65) : State :=
  (s.memWrite a.toNat v).upd65 f

/-- A row that reads at `PC` and drops the byte. -/
def State.dummyPcRow (s : State) : State := s.readRow s.m65.pc fun _ c => c.next

/-- A row that reads the stack, drops the byte and increments `S`. -/
def State.dummyPullRow (s : State) : State :=
  s.readRow s.m65.stackAddr fun _ c => Cpu65.next { c with s := c.s + 1 }

/-- A row that pushes a byte (R167). -/
def State.pushRow (s : State) (v : Byte) : State :=
  s.writeRow s.m65.stackAddr v fun c => Cpu65.next { c with s := c.s - 1 }

/-! ## Trap entry and trap return of the 6502 (60_exceptions.md R452, R453) -/

/-- `BRK` (R296): the return address and `pack(P, 1)` go to the stack, then `P.I` and `P.B` are set and control
goes through the vector at 0xFFFE. -/
def trapEntryCycle (s : State) : Option State :=
  match s.m65.t.toNat with
  | 1 => some (s.readRow s.m65.pc fun _ c => Cpu65.next { c with pc := c.pc + 1 })
  | 2 => some (s.pushRow (hiByte s.m65.pc))
  | 3 => some (s.pushRow (loByte s.m65.pc))
  | 4 => some (s.pushRow (s.m65.p.pack true))
  | 5 => some (s.readRow 0xFFFE fun b c => Cpu65.next { c with adl := b, p := { c.p with i := true, b := true } })
  | 6 => some (s.readRow 0xFFFF fun b c => Cpu65.finish { c with adh := b, pc := mkWord b c.adl })
  | _ => none

/-- `RTI` (R294): pull the status, then the program counter. -/
def trapReturnCycle (s : State) : Option State :=
  match s.m65.t.toNat with
  | 1 => some s.dummyPcRow
  | 2 => some s.dummyPullRow
  | 3 => some (s.readRow s.m65.stackAddr fun b c => Cpu65.next { c with p := c.p.unpack b, s := c.s + 1 })
  | 4 => some (s.readRow s.m65.stackAddr fun b c => Cpu65.next { c with adl := b, s := c.s + 1 })
  | 5 => some (s.readRow s.m65.stackAddr fun b c => Cpu65.finish { c with adh := b, pc := mkWord b c.adl })
  | _ => none

/-! ## Registers of the CHIP-8 family -/

/-- Change the state of the CHIP-8 family. -/
def State.updC8 (s : State) (f : CpuC8 → CpuC8) : State := { s with c8 := f s.c8 }

/-- Change the state of XOCHIP. -/
def State.updXo (s : State) (f : XoState → XoState) : State := { s with xo := f s.xo }

/-- `V[x]` (R40). -/
def State.reg (s : State) (x : BitVec 4) : Byte := s.c8.v[x.toNat]'x.isLt

/-- `V[x] <- b` (R40). -/
def State.setReg (s : State) (x : BitVec 4) (b : Byte) : State :=
  s.updC8 fun c => { c with v := c.v.set x.toNat b x.isLt }

/-- `PC <- target` (R10). -/
def State.setPc (s : State) (target : Word) : State := s.updC8 fun c => { c with pc := target }

/-- `I <- v` (R41). -/
def State.setI (s : State) (v : Word) : State := s.updC8 fun c => { c with i := v }

/-- `KEY[k]` (R46). -/
def State.keyDown (s : State) (k : BitVec 4) : Bool := s.c8.key[k.toNat]'k.isLt

/-- `MemWrite(a + i, 1, V[r_i])` for the registers of a list, in order (R327). -/
def State.storeRegs (s : State) (a : Nat) : List (BitVec 4) → State
  | [] => s
  | r :: rest => State.storeRegs (s.memWrite a (s.reg r)) (a + 1) rest

/-- `V[r_i] <- MemRead(a + i, 1)` for the registers of a list, in order (R327). -/
def State.loadRegs (s : State) (a : Nat) : List (BitVec 4) → State
  | [] => s
  | r :: rest => State.loadRegs ((s.afterRead a).setReg r (s.readVal a)) (a + 1) rest

/-- Registers 0 to x, ascending (R381, R382, R427, R428). -/
def regsTo (x : BitVec 4) : List (BitVec 4) := (List.range (x.toNat + 1)).map (BitVec.ofNat 4)

/-- Registers x to y in either direction (R420, R421). -/
def regsBetween (x y : BitVec 4) : List (BitVec 4) :=
  if x.toNat ≤ y.toNat then
    (List.range (y.toNat - x.toNat + 1)).map fun i => BitVec.ofNat 4 (x.toNat + i)
  else (List.range (x.toNat - y.toNat + 1)).map fun i => BitVec.ofNat 4 (x.toNat - i)

end Sys2Proof.Machine
end

