-- ==== Sys2Proof/Machine/Operands.lean ====
section
/-! DEFINITION. Every operand form: the address arithmetic of the 6502 modes (40_m65_engine.md R166), the
effective address each mode yields (30_encoding.md R121), the branch target (R179), and the skip of the CHIP-8
family (45_c8_engine.md R325). -/

namespace Sys2Proof.Machine

/-- The page-cross carry: the carry out of the 8-bit add of the index to the low address byte (R166). -/
def indexCarry (low idx : Byte) : Bool := decide (256 ≤ low.toNat + idx.toNat)

/-- `ADH + PGX` mod 256 (R176, R178). -/
def addCarry (high : Byte) (carry : Bool) : Byte := high + flagByte carry

/-- The target of a branch: the address after the instruction plus the signed offset, mod 2^16 (R122, R179). -/
def branchTarget (pcAfter : Word) (offset : Byte) : Word := pcAfter + sext8 offset

/-- A zero-page address (R122). -/
def zeroPage (low : Byte) : Word := mkWord 0x00 low

/-- The byte of `MEM` at a 16-bit address, without a bus operation. -/
def State.peekW (s : State) (a : Word) : Byte := s.peek a.toNat

/-- The pointer in page zero at `p`: its two bytes both come from page zero (R166, R177, R178). -/
def State.zpPointer (s : State) (p : Byte) : Word :=
  mkWord (s.peekW (zeroPage (p + 1))) (s.peekW (zeroPage p))

/-- The address of the operand each mode yields (R121), for a state whose `PC` stands at the first operand byte:
none for the modes that name no memory operand. -/
def State.effectiveAddr (s : State) : Mode → Option Word
  | .imp => none
  | .acc => none
  | .imm => some s.m65.pc
  | .zp => some (zeroPage (s.peekW s.m65.pc))
  | .zpx => some (zeroPage (s.peekW s.m65.pc + s.m65.x))
  | .zpy => some (zeroPage (s.peekW s.m65.pc + s.m65.y))
  | .abs => some (mkWord (s.peekW (s.m65.pc + 1)) (s.peekW s.m65.pc))
  | .abx => some (mkWord (s.peekW (s.m65.pc + 1)) (s.peekW s.m65.pc) + zext8 s.m65.x)
  | .aby => some (mkWord (s.peekW (s.m65.pc + 1)) (s.peekW s.m65.pc) + zext8 s.m65.y)
  | .izx => some (s.zpPointer (s.peekW s.m65.pc + s.m65.x))
  | .izy => some (s.zpPointer (s.peekW s.m65.pc) + zext8 s.m65.y)
  | .rel => none
  | .ind => none

/-- `Skip()` (R325): over 4 bytes when an XOCHIP peek finds `F000`, else over 2; CHIP8 makes no read. -/
def State.skip (s : State) : State :=
  if s.cfg.arch = .xochip then
    (s.afterRead2 s.c8.pc.toNat).setPc
      (if s.readVal2 s.c8.pc.toNat = 0xF000 then s.c8.pc + 4 else s.c8.pc + 2)
  else s.setPc (s.c8.pc + 2)

/-- Skip when the condition holds. -/
def State.skipIf (s : State) (cond : Bool) : State := if cond then s.skip else s

end Sys2Proof.Machine
end

