-- ==== Sys2Proof/Machine/C8Display.lean ====
section
/-! DEFINITION. The framebuffer and its logical pixels (10_state.md R47, R54, R55), and the display instructions of
the CHIP-8 family: clear, draw, scroll and resolution (47_c8_display.md R400 to R411). -/

namespace Sys2Proof.Machine

/-! ## Cells and logical pixels -/

/-- `FB[y][x]`; 0 outside the grid. -/
def FrameBuf.cell (fb : FrameBuf) (x y : Nat) : BitVec 4 :=
  if h : y < 64 ∧ x < 128 then (fb[y]'h.1)[x]'h.2 else 0

/-- `FB[y][x] <- v`; nothing outside the grid. -/
def FrameBuf.setCell (fb : FrameBuf) (x y : Nat) (v : BitVec 4) : FrameBuf :=
  if h : y < 64 ∧ x < 128 then fb.set y ((fb[y]'h.1).set x v h.2) h.1 else fb

/-- The grid whose cell (x, y) is `f x y`. -/
def FrameBuf.tabulate (f : Nat → Nat → BitVec 4) : FrameBuf :=
  Vector.ofFn fun y => Vector.ofFn fun x => f x.val y.val

/-- `K`: the side of a logical pixel in cells (R55). -/
def State.pixelSide (s : State) : Nat := if s.cfg.arch = .xochip ∧ s.xo.hires = false then 2 else 1

/-- `LW` (R55). -/
def State.logicalWidth (s : State) : Nat := if s.cfg.arch = .xochip ∧ s.xo.hires = true then 128 else 64

/-- `LH` (R55). -/
def State.logicalHeight (s : State) : Nat := if s.cfg.arch = .xochip ∧ s.xo.hires = true then 64 else 32

/-- `GetPx(lx, ly)` (R55). -/
def State.getPx (s : State) (lx ly : Nat) : BitVec 4 := s.c8.fb.cell (lx * s.pixelSide) (ly * s.pixelSide)

/-- Write a row of `k` cells. -/
def FrameBuf.setRun (fb : FrameBuf) (x y : Nat) (v : BitVec 4) : Nat → FrameBuf
  | 0 => fb
  | k + 1 => (FrameBuf.setRun fb x y v k).setCell (x + k) y v

/-- Write `rows` rows of `k` cells. -/
def FrameBuf.setBlock (fb : FrameBuf) (x y k : Nat) (v : BitVec 4) : Nat → FrameBuf
  | 0 => fb
  | rows + 1 => (FrameBuf.setBlock fb x y k v rows).setRun x (y + rows) v k

/-- `SetPx(lx, ly, v)` (R55): all K x K cells of the block. -/
def State.setPx (s : State) (lx ly : Nat) (v : BitVec 4) : State :=
  s.updC8 fun c =>
    { c with fb := c.fb.setBlock (lx * s.pixelSide) (ly * s.pixelSide) s.pixelSide v s.pixelSide }

/-- Replace the framebuffer. -/
def State.setFb (s : State) (fb : FrameBuf) : State := s.updC8 fun c => { c with fb := fb }

/-! ## Clear -/

/-- `CLS` (R400): the whole display on CHIP8, the selected planes on XOCHIP. -/
def execCls (s : State) : Host.Outcome State Fault Refusal :=
  if s.cfg.arch = .xochip then
    .next (s.setFb (FrameBuf.tabulate fun x y => s.c8.fb.cell x y &&& ~~~s.xo.plane))
  else .next (s.setFb FrameBuf.blank)

/-! ## Draw (R401) -/

/-- The planes a draw selects, ascending: plane 0 on CHIP8. -/
def State.drawPlanes (s : State) : List Nat :=
  if s.cfg.arch = .xochip then (List.range 4).filter fun p => s.xo.plane.getLsbD p else [0]

/-- `rows` and `bpr`: a 16 x 16 sprite for n = 0 on XOCHIP, else 8 x n. -/
def State.spriteShape (s : State) (n : BitVec 4) : Nat × Nat :=
  if s.cfg.arch = .xochip ∧ n = 0 then (16, 2) else (n.toNat, 1)

/-- Toggle plane `p` of one logical pixel; the flag becomes true when the pixel bit was set. -/
def plotBit (p px py : Nat) (sc : State × Bool) : State × Bool :=
  (sc.1.setPx px py (sc.1.getPx px py ^^^ (1#4 <<< p)), sc.2 || (sc.1.getPx px py).getLsbD p)

/-- The eight pixels of one sprite byte, bit 7 leftmost, both coordinates wrapping (D18). -/
def plotByte (p x0 py : Nat) (byte : Byte) : List Nat → State × Bool → State × Bool
  | [], sc => sc
  | b :: rest, sc =>
    plotByte p x0 py byte rest
      (if byte.getLsbD (7 - b) then plotBit p ((x0 + b) % sc.1.logicalWidth) py sc else sc)

/-- One sprite byte: plane, row in the sprite, byte in the row. -/
abbrev SpriteByte := Nat × Nat × Nat

/-- The sprite bytes in the order they are read (R401): planes, rows, bytes of a row. -/
def spriteBytes (planes : List Nat) (rows bpr : Nat) : List SpriteByte :=
  planes.flatMap fun p => (List.range rows).flatMap fun r => (List.range bpr).map fun c => (p, r, c)

/-- Read the sprite bytes from ascending addresses and draw each. -/
def drawBytes (x0 y0 : Nat) (a : Nat) : List SpriteByte → State × Bool → State × Bool
  | [], sc => sc
  | (p, r, c) :: rest, sc =>
    drawBytes x0 y0 (a + 1) rest
      (plotByte p (x0 + 8 * c) ((y0 + r) % sc.1.logicalHeight) (sc.1.readVal a) (List.range 8)
        (sc.1.afterRead a, sc.2))

/-- The sprite drawn: the state before `VF` is written, and the collision flag. -/
def State.drawSprite (s : State) (x y n : BitVec 4) : State × Bool :=
  drawBytes ((s.reg x).toNat % s.logicalWidth) ((s.reg y).toNat % s.logicalHeight) s.c8.i.toNat
    (spriteBytes s.drawPlanes (s.spriteShape n).1 (s.spriteShape n).2) (s, false)

/-- `DRW Vx, Vy, n` (R401). The display-wait request is a signal of the step loop, not state (R320, R326). -/
def execDrw (x y n : BitVec 4) (s : State) : Host.Outcome State Fault Refusal :=
  .next ((s.drawSprite x y n).1.setReg 0xF (flagByte (s.drawSprite x y n).2))

/-! ## Scroll (R403) -/

/-- The new value of logical pixel (lx, ly) after `Scroll(dx, dy)`, from the old contents. -/
def State.scrolledPx (s : State) (dx dy : Int) (lx ly : Nat) : BitVec 4 :=
  let sx : Int := lx - dx
  let sy : Int := ly - dy
  let src : BitVec 4 :=
    if 0 ≤ sx ∧ sx < s.logicalWidth ∧ 0 ≤ sy ∧ sy < s.logicalHeight then s.getPx sx.toNat sy.toNat else 0
  (s.getPx lx ly &&& ~~~s.xo.plane) ||| (src &&& s.xo.plane)

/-- `Scroll(dx, dy)`: every cell takes the new value of its logical pixel. -/
def State.scroll (s : State) (dx dy : Int) : State :=
  s.setFb (FrameBuf.tabulate fun x y => s.scrolledPx dx dy (x / s.pixelSide) (y / s.pixelSide))

/-- `SCD n` (R404). -/
def execScd (n : BitVec 4) (s : State) : Host.Outcome State Fault Refusal := .next (s.scroll 0 n.toNat)

/-- `SCU n` (R405). -/
def execScu (n : BitVec 4) (s : State) : Host.Outcome State Fault Refusal := .next (s.scroll 0 (-n.toNat))

/-- `SCR` (R406). -/
def execScr (s : State) : Host.Outcome State Fault Refusal := .next (s.scroll 4 0)

/-- `SCL` (R407). -/
def execScl (s : State) : Host.Outcome State Fault Refusal := .next (s.scroll (-4) 0)

/-! ## Resolution -/

/-- `LOW` (R410): every plane is cleared, whatever `PLANE` is. -/
def execLow (s : State) : Host.Outcome State Fault Refusal :=
  .next ((s.setFb FrameBuf.blank).updXo fun x => { x with hires := false })

/-- `HIGH` (R411). -/
def execHigh (s : State) : Host.Outcome State Fault Refusal :=
  .next ((s.setFb FrameBuf.blank).updXo fun x => { x with hires := true })

end Sys2Proof.Machine
end

