-- ==== Sys2Proof/Machine/C8Base.lean ====
section
/-! DEFINITION. CHIP-8 family: the 32 base instructions (46_c8_base.md R350 to R382). In every meaning `PC` already
stands after the instruction (45_c8_engine.md R322). None of them stops the machine; a bus fault or a stack
fault is one record of `FAULTLOG`. -/

namespace Sys2Proof.Machine

/-! ## Flow control -/

/-- `JP nnn` (R350). -/
def execJp (nnn : BitVec 12) (s : State) : Host.Outcome State Fault Refusal := .next (s.setPc (zext12 nnn))

/-- `RET` (R351): an empty stack is one record and nothing else. -/
def execRet (s : State) : Host.Outcome State Fault Refusal :=
  if s.c8.sp = 0 then .next (s.raise .stackUnderflow none)
  else
    .next (s.updC8 fun c =>
      { c with sp := c.sp - 1, pc := c.stack.toList.getD (c.sp - 1).toNat 0 })

/-- `CALL nnn` (R352): a full stack is one record and nothing else. -/
def execCall (nnn : BitVec 12) (s : State) : Host.Outcome State Fault Refusal :=
  if s.c8.sp.toNat = s.cfg.arch.stackDepth then .next (s.raise .stackOverflow none)
  else
    .next (s.updC8 fun c =>
      { c with stack := c.stack.setIfInBounds c.sp.toNat c.pc, sp := c.sp + 1, pc := zext12 nnn })

/-- `JP V0, nnn` (R353); with `Q_JUMP_VX` the offset is `V[x]`, x the top digit of nnn. -/
def execJpV0 (nnn : BitVec 12) (s : State) : Host.Outcome State Fault Refusal :=
  let offset := if s.cfg.qJumpVx then s.reg (nnn.extractLsb' 8 4) else s.reg 0
  .next (s.setPc (zext12 nnn + zext8 offset))

/-! ## Skips -/

/-- `SE Vx, nn` (R354). -/
def execSeImm (x : BitVec 4) (nn : Byte) (s : State) : Host.Outcome State Fault Refusal :=
  .next (s.skipIf (decide (s.reg x = nn)))

/-- `SNE Vx, nn` (R355). -/
def execSneImm (x : BitVec 4) (nn : Byte) (s : State) : Host.Outcome State Fault Refusal :=
  .next (s.skipIf (decide (s.reg x ≠ nn)))

/-- `SE Vx, Vy` (R356). -/
def execSeReg (x y : BitVec 4) (s : State) : Host.Outcome State Fault Refusal :=
  .next (s.skipIf (decide (s.reg x = s.reg y)))

/-- `SNE Vx, Vy` (R357). -/
def execSneReg (x y : BitVec 4) (s : State) : Host.Outcome State Fault Refusal :=
  .next (s.skipIf (decide (s.reg x ≠ s.reg y)))

/-- `SKP Vx` (R372). -/
def execSkp (x : BitVec 4) (s : State) : Host.Outcome State Fault Refusal :=
  .next (s.skipIf (s.keyDown (lowNibble (s.reg x))))

/-- `SKNP Vx` (R373). -/
def execSknp (x : BitVec 4) (s : State) : Host.Outcome State Fault Refusal :=
  .next (s.skipIf (!s.keyDown (lowNibble (s.reg x))))

/-! ## Register loads and the arithmetic group -/

/-- The `VF` rule (R361): the result is written first, the flag last. -/
def State.setWithFlag (s : State) (x : BitVec 4) (r f : Byte) : State := (s.setReg x r).setReg 0xF f

/-- The logic group (R362 to R364): `VF` is cleared last when `Q_LOGIC_VF_RESET`. -/
def State.setLogic (s : State) (x : BitVec 4) (r : Byte) : State :=
  if s.cfg.qLogicVfReset then s.setWithFlag x r 0 else s.setReg x r

/-- The value a shift moves (R367, R369). -/
def State.shiftSource (s : State) (x y : BitVec 4) : Byte := if s.cfg.qShiftVy then s.reg y else s.reg x

/-- `LD Vx, nn` (R358). -/
def execLdImm (x : BitVec 4) (nn : Byte) (s : State) : Host.Outcome State Fault Refusal := .next (s.setReg x nn)

/-- `ADD Vx, nn` (R359); no flag. -/
def execAddImm (x : BitVec 4) (nn : Byte) (s : State) : Host.Outcome State Fault Refusal :=
  .next (s.setReg x (s.reg x + nn))

/-- `LD Vx, Vy` (R360). -/
def execLdReg (x y : BitVec 4) (s : State) : Host.Outcome State Fault Refusal := .next (s.setReg x (s.reg y))

/-- `OR Vx, Vy` (R362). -/
def execOrReg (x y : BitVec 4) (s : State) : Host.Outcome State Fault Refusal :=
  .next (s.setLogic x (s.reg x ||| s.reg y))

/-- `AND Vx, Vy` (R363). -/
def execAndReg (x y : BitVec 4) (s : State) : Host.Outcome State Fault Refusal :=
  .next (s.setLogic x (s.reg x &&& s.reg y))

/-- `XOR Vx, Vy` (R364). -/
def execXorReg (x y : BitVec 4) (s : State) : Host.Outcome State Fault Refusal :=
  .next (s.setLogic x (s.reg x ^^^ s.reg y))

/-- `ADD Vx, Vy` (R365): `VF` is the carry. -/
def execAddReg (x y : BitVec 4) (s : State) : Host.Outcome State Fault Refusal :=
  .next (s.setWithFlag x (s.reg x + s.reg y) (flagByte (decide (256 ≤ (s.reg x).toNat + (s.reg y).toNat))))

/-- `SUB Vx, Vy` (R366): `VF` is 1 when there is no borrow. -/
def execSubReg (x y : BitVec 4) (s : State) : Host.Outcome State Fault Refusal :=
  .next (s.setWithFlag x (s.reg x - s.reg y) (flagByte (decide ((s.reg y).toNat ≤ (s.reg x).toNat))))

/-- `SHR Vx, Vy` (R367): `VF` is the bit shifted out. -/
def execShrReg (x y : BitVec 4) (s : State) : Host.Outcome State Fault Refusal :=
  .next (s.setWithFlag x (s.shiftSource x y >>> 1) (flagByte ((s.shiftSource x y).getLsbD 0)))

/-- `SUBN Vx, Vy` (R368). -/
def execSubnReg (x y : BitVec 4) (s : State) : Host.Outcome State Fault Refusal :=
  .next (s.setWithFlag x (s.reg y - s.reg x) (flagByte (decide ((s.reg x).toNat ≤ (s.reg y).toNat))))

/-- `SHL Vx, Vy` (R369). -/
def execShlReg (x y : BitVec 4) (s : State) : Host.Outcome State Fault Refusal :=
  .next (s.setWithFlag x (s.shiftSource x y <<< 1) (flagByte ((s.shiftSource x y).getLsbD 7)))

/-- `RND Vx, nn` (R371): the byte drawn is the next one of the stream RAND, a free value (log 5). -/
def execRnd (x : BitVec 4) (nn : Byte) (s : State) : Host.Outcome State Fault Refusal :=
  .next { s.setReg x (Config.rand s.randDraws &&& nn) with randDraws := s.randDraws + 1 }

/-! ## Index register -/

/-- `LD I, nnn` (R370). -/
def execLdI (nnn : BitVec 12) (s : State) : Host.Outcome State Fault Refusal := .next (s.setI (zext12 nnn))

/-- `ADD I, Vx` (R377); `VF` is not written. -/
def execAddI (x : BitVec 4) (s : State) : Host.Outcome State Fault Refusal :=
  .next (s.setI (s.c8.i + zext8 (s.reg x)))

/-- `LD F, Vx` (R379): the address of a 4 x 5 glyph. -/
def execLdF (x : BitVec 4) (s : State) : Host.Outcome State Fault Refusal :=
  .next (s.setI (BitVec.ofNat 16 (fontBase + 5 * (lowNibble (s.reg x)).toNat)))

/-! ## Timers -/

/-- `LD Vx, DT` (R374). -/
def execLdVxDt (x : BitVec 4) (s : State) : Host.Outcome State Fault Refusal := .next (s.setReg x s.c8.dt)

/-- `LD DT, Vx` (R375). -/
def execLdDtVx (x : BitVec 4) (s : State) : Host.Outcome State Fault Refusal :=
  .next (s.updC8 fun c => { c with dt := s.reg x })

/-- `LD ST, Vx` (R376). -/
def execLdStVx (x : BitVec 4) (s : State) : Host.Outcome State Fault Refusal :=
  .next (s.updC8 fun c => { c with st := s.reg x })

/-! ## Key wait -/

/-- `LD Vx, K` (R378): arm, or take the released key, or keep waiting; a wait puts `PC` back on the instruction. -/
def execLdVxK (x : BitVec 4) (s : State) : Host.Outcome State Fault Refusal :=
  if s.c8.kwWait = false then
    .next (s.updC8 fun c => { c with kwWait := true, kwValid := false, pc := c.pc - 2 })
  else if s.c8.kwValid = true then
    .next ((s.setReg x (s.c8.kwIndex.setWidth 8)).updC8 fun c => { c with kwWait := false, kwValid := false })
  else .next (s.setPc (s.c8.pc - 2))

/-! ## Memory -/

/-- `LD B, Vx` (R380): hundreds, tens, ones. -/
def execLdB (x : BitVec 4) (s : State) : Host.Outcome State Fault Refusal :=
  let v := (s.reg x).toNat
  let a := s.c8.i.toNat
  .next (((s.memWrite a (BitVec.ofNat 8 (v / 100))).memWrite (a + 1) (BitVec.ofNat 8 (v / 10 % 10))).memWrite
    (a + 2) (BitVec.ofNat 8 (v % 10)))

/-- `I <- (I + x + 1) mod 2^16` when `Q_MEM_INC_I` (R381, R382). -/
def State.advanceI (s : State) (x : BitVec 4) : State :=
  if s.cfg.qMemIncI then s.setI (s.c8.i + x.setWidth 16 + 1) else s

/-- `LD [I], Vx` (R381). -/
def execLdMemVx (x : BitVec 4) (s : State) : Host.Outcome State Fault Refusal :=
  .next ((s.storeRegs s.c8.i.toNat (regsTo x)).advanceI x)

/-- `LD Vx, [I]` (R382). -/
def execLdVxMem (x : BitVec 4) (s : State) : Host.Outcome State Fault Refusal :=
  .next ((s.loadRegs s.c8.i.toNat (regsTo x)).advanceI x)

end Sys2Proof.Machine
end

