-- ==== Sys2Proof/Machine/M65Engine.lean ====
section
/-! DEFINITION. The 6502 family's micro-cycle engine: the operation hooks (40_m65_engine.md R190), the
resolver sequence of each addressing mode (R170 to R179), the sequences of the SPECIAL instructions
(43_m65_control.md), and the run of the micro-cycles of one instruction up to `Finish` (R163). A sequence is a
function of `T`; it answers none for a row it does not have. -/

namespace Sys2Proof.Machine

/-! ## Operation hooks (R190) -/

/-- `read_op(MN, m)` of class R (R220 to R222, R241, R243 to R250). -/
def readOp (mn : Mn) (m : Byte) (c : Cpu65) : Cpu65 :=
  match mn with
  | .lda => { c with a := m, p := c.p.setNZ m }
  | .ldx => { c with x := m, p := c.p.setNZ m }
  | .ldy => { c with y := m, p := c.p.setNZ m }
  | .adc => { c with a := adcResult c.a m c.p.c, p := c.p.afterAdc c.a m }
  | .sbc => { c with a := adcResult c.a (~~~m) c.p.c, p := c.p.afterAdc c.a (~~~m) }
  | .and => { c with a := c.a &&& m, p := c.p.setNZ (c.a &&& m) }
  | .ora => { c with a := c.a ||| m, p := c.p.setNZ (c.a ||| m) }
  | .eor => { c with a := c.a ^^^ m, p := c.p.setNZ (c.a ^^^ m) }
  | .cmp => { c with p := c.p.afterCompare c.a m }
  | .cpx => { c with p := c.p.afterCompare c.x m }
  | .cpy => { c with p := c.p.afterCompare c.y m }
  | .bit => { c with p := c.p.afterBit c.a m }
  | _ => c

/-- `write_val(MN)` of class W (R223 to R225). -/
def writeVal (mn : Mn) (c : Cpu65) : Byte :=
  match mn with
  | .stx => c.x
  | .sty => c.y
  | _ => c.a

/-- `modify_op(MN, m)` of classes M and ACC (R251, R252, R257 to R260): the result and the flags. -/
def modifyOp (mn : Mn) (p : Flags) (m : Byte) : Byte × Flags :=
  match mn with
  | .asl => aslOp p m
  | .lsr => lsrOp p m
  | .rol => rolOp p m
  | .ror => rorOp p m
  | .inc => incOp p m
  | .dec => decOp p m
  | _ => (m, p)

/-- `imp_op(MN)` of class IMP (R226 to R231, R253 to R256, R297, R302 to R308). -/
def impOp (mn : Mn) (c : Cpu65) : Cpu65 :=
  match mn with
  | .tax => { c with x := c.a, p := c.p.setNZ c.a }
  | .tay => { c with y := c.a, p := c.p.setNZ c.a }
  | .txa => { c with a := c.x, p := c.p.setNZ c.x }
  | .tya => { c with a := c.y, p := c.p.setNZ c.y }
  | .tsx => { c with x := c.s, p := c.p.setNZ c.s }
  | .txs => { c with s := c.x }
  | .inx => { c with x := c.x + 1, p := c.p.setNZ (c.x + 1) }
  | .iny => { c with y := c.y + 1, p := c.p.setNZ (c.y + 1) }
  | .dex => { c with x := c.x - 1, p := c.p.setNZ (c.x - 1) }
  | .dey => { c with y := c.y - 1, p := c.p.setNZ (c.y - 1) }
  | .clc => { c with p := { c.p with c := false } }
  | .sec => { c with p := { c.p with c := true } }
  | .cli => { c with p := { c.p with i := false } }
  | .sei => { c with p := { c.p with i := true } }
  | .clv => { c with p := { c.p with v := false } }
  | .cld => { c with p := { c.p with d := false } }
  | .sed => { c with p := { c.p with d := true } }
  | _ => c

/-- `cond` of a branch (R280 to R287). -/
def branchCond (mn : Mn) (p : Flags) : Bool :=
  match mn with
  | .bcc => !p.c
  | .bcs => p.c
  | .beq => p.z
  | .bmi => p.n
  | .bne => !p.z
  | .bpl => !p.n
  | .bvc => !p.v
  | .bvs => p.v
  | _ => false

/-! ## The rows that use the finished address

Once `AD` is the effective address, class R reads it, class W writes it, and class M reads, writes the old value
back while the flags change, and writes the result. -/

/-- Row `j` of those rows, counted from 0. -/
def accessRow (mn : Mn) (cls : Cls) (j : Nat) (s : State) : Option State :=
  match cls, j with
  | .r, 0 => some (s.readRow s.m65.ad fun m c => Cpu65.finish (readOp mn m c))
  | .w, 0 => some (s.writeRow s.m65.ad (writeVal mn s.m65) fun c => c.finish)
  | .m, 0 => some (s.readRow s.m65.ad fun b c => Cpu65.next { c with data := b })
  | .m, 1 =>
    some (s.writeRow s.m65.ad s.m65.data fun c =>
      Cpu65.next { c with data := (modifyOp mn c.p c.data).1, p := (modifyOp mn c.p c.data).2 })
  | .m, 2 => some (s.writeRow s.m65.ad s.m65.data fun c => c.finish)
  | _, _ => none

/-! ## Resolver sequences -/

/-- Mode `imp`, class IMP (R170). -/
def impCycle (mn : Mn) (s : State) : Option State :=
  match s.m65.t.toNat with
  | 1 => some (s.readRow s.m65.pc fun _ c => Cpu65.finish (impOp mn c))
  | _ => none

/-- Mode `acc` (R171). -/
def accCycle (mn : Mn) (s : State) : Option State :=
  match s.m65.t.toNat with
  | 1 =>
    some (s.readRow s.m65.pc fun _ c =>
      Cpu65.finish { c with a := (modifyOp mn c.p c.a).1, p := (modifyOp mn c.p c.a).2 })
  | _ => none

/-- Mode `imm` (R172). -/
def immCycle (mn : Mn) (s : State) : Option State :=
  match s.m65.t.toNat with
  | 1 => some (s.readRow s.m65.pc fun b c => Cpu65.finish (readOp mn b { c with data := b, pc := c.pc + 1 }))
  | _ => none

/-- Mode `zp` (R173). -/
def zpCycle (mn : Mn) (cls : Cls) (s : State) : Option State :=
  match s.m65.t.toNat with
  | 0 => none
  | 1 => some (s.readRow s.m65.pc fun b c => Cpu65.next { c with adl := b, adh := 0, pc := c.pc + 1 })
  | k + 2 => accessRow mn cls k s

/-- Modes `zpx` and `zpy` (R174). -/
def zpIndexedCycle (mn : Mn) (cls : Cls) (idx : Cpu65 → Byte) (s : State) : Option State :=
  match s.m65.t.toNat with
  | 0 => none
  | 1 => some (s.readRow s.m65.pc fun b c => Cpu65.next { c with adl := b, adh := 0, pc := c.pc + 1 })
  | 2 => some (s.readRow s.m65.ad fun _ c => Cpu65.next { c with adl := c.adl + idx c })
  | k + 3 => accessRow mn cls k s

/-- Mode `abs` (R175). -/
def absCycle (mn : Mn) (cls : Cls) (s : State) : Option State :=
  match s.m65.t.toNat with
  | 0 => none
  | 1 => some (s.readRow s.m65.pc fun b c => Cpu65.next { c with adl := b, pc := c.pc + 1 })
  | 2 => some (s.readRow s.m65.pc fun b c => Cpu65.next { c with adh := b, pc := c.pc + 1 })
  | k + 3 => accessRow mn cls k s

/-- The row that reads the uncorrected address, drops the byte and adds the page-cross carry (R176, R178). -/
def fixHighRow (s : State) : State :=
  s.readRow s.m65.ad fun _ c => Cpu65.next { c with adh := addCarry c.adh c.pgx }

/-- The rows after the index add of `abx`, `aby` and `izy`, counted from 0 (R176, R178): a read whose add did not
cross a page skips the correction row; writes and read-modify-writes always spend it. -/
def indexedTail (mn : Mn) (cls : Cls) (j : Nat) (s : State) : Option State :=
  match cls, j with
  | .r, 0 => if s.m65.pgx then some (fixHighRow s) else accessRow mn .r 0 s
  | _, 0 => some (fixHighRow s)
  | _, k + 1 => accessRow mn cls k s

/-- Modes `abx` and `aby` (R176). -/
def absIndexedCycle (mn : Mn) (cls : Cls) (idx : Cpu65 → Byte) (s : State) : Option State :=
  match s.m65.t.toNat with
  | 0 => none
  | 1 => some (s.readRow s.m65.pc fun b c => Cpu65.next { c with adl := b, pc := c.pc + 1 })
  | 2 =>
    some (s.readRow s.m65.pc fun b c =>
      Cpu65.next { c with adh := b, pc := c.pc + 1, pgx := indexCarry c.adl (idx c), adl := c.adl + idx c })
  | k + 3 => indexedTail mn cls k s

/-- Mode `izx` (R177). -/
def izxCycle (mn : Mn) (cls : Cls) (s : State) : Option State :=
  match s.m65.t.toNat with
  | 0 => none
  | 1 => some (s.readRow s.m65.pc fun b c => Cpu65.next { c with ptr := b, pc := c.pc + 1 })
  | 2 => some (s.readRow (zeroPage s.m65.ptr) fun _ c => Cpu65.next { c with ptr := c.ptr + c.x })
  | 3 => some (s.readRow (zeroPage s.m65.ptr) fun b c => Cpu65.next { c with adl := b })
  | 4 => some (s.readRow (zeroPage (s.m65.ptr + 1)) fun b c => Cpu65.next { c with adh := b })
  | k + 5 => accessRow mn cls k s

/-- Mode `izy` (R178). -/
def izyCycle (mn : Mn) (cls : Cls) (s : State) : Option State :=
  match s.m65.t.toNat with
  | 0 => none
  | 1 => some (s.readRow s.m65.pc fun b c => Cpu65.next { c with ptr := b, pc := c.pc + 1 })
  | 2 => some (s.readRow (zeroPage s.m65.ptr) fun b c => Cpu65.next { c with adl := b })
  | 3 =>
    some (s.readRow (zeroPage (s.m65.ptr + 1)) fun b c =>
      Cpu65.next { c with adh := b, pgx := indexCarry c.adl c.y, adl := c.adl + c.y })
  | k + 4 => indexedTail mn cls k s

/-- Mode `rel` (R179). The condition is sampled in row 1; row 2 leaves the old high byte of `PC` in place and
row 3 corrects it when the branch crosses a page. -/
def relCycle (mn : Mn) (s : State) : Option State :=
  match s.m65.t.toNat with
  | 1 =>
    some (s.readRow s.m65.pc fun b c =>
      let c' := { c with data := b, pc := c.pc + 1 }
      if branchCond mn c.p then c'.next else c'.finish)
  | 2 =>
    some (s.readRow s.m65.pc fun _ c =>
      let tgt := branchTarget c.pc c.data
      let crossed := decide (hiByte tgt ≠ hiByte c.pc)
      let c' := { c with adh := hiByte tgt, pgx := crossed, pc := mkWord (hiByte c.pc) (loByte tgt) }
      if crossed then c'.next else c'.finish)
  | 3 => some (s.readRow s.m65.pc fun _ c => Cpu65.finish { c with pc := mkWord c.adh (loByte c.pc) })
  | _ => none

/-! ## SPECIAL sequences (43_m65_control.md) -/

/-- `JMP abs` (R290). -/
def jmpAbsCycle (s : State) : Option State :=
  match s.m65.t.toNat with
  | 1 => some (s.readRow s.m65.pc fun b c => Cpu65.next { c with adl := b, pc := c.pc + 1 })
  | 2 => some (s.readRow s.m65.pc fun b c => Cpu65.finish { c with adh := b, pc := mkWord b c.adl })
  | _ => none

/-- `JMP (ind)` (R291): the pointer's high byte is fetched without carry into `ADH`. -/
def jmpIndCycle (s : State) : Option State :=
  match s.m65.t.toNat with
  | 1 => some (s.readRow s.m65.pc fun b c => Cpu65.next { c with adl := b, pc := c.pc + 1 })
  | 2 => some (s.readRow s.m65.pc fun b c => Cpu65.next { c with adh := b, pc := c.pc + 1 })
  | 3 => some (s.readRow s.m65.ad fun b c => Cpu65.next { c with data := b })
  | 4 =>
    some (s.readRow (mkWord s.m65.adh (s.m65.adl + 1)) fun b c => Cpu65.finish { c with pc := mkWord b c.data })
  | _ => none

/-- `JSR` (R292): the high operand byte is read after the two pushes. -/
def jsrCycle (s : State) : Option State :=
  match s.m65.t.toNat with
  | 1 => some (s.readRow s.m65.pc fun b c => Cpu65.next { c with adl := b, pc := c.pc + 1 })
  | 2 => some (s.readRow s.m65.stackAddr fun _ c => c.next)
  | 3 => some (s.pushRow (hiByte s.m65.pc))
  | 4 => some (s.pushRow (loByte s.m65.pc))
  | 5 => some (s.readRow s.m65.pc fun b c => Cpu65.finish { c with adh := b, pc := mkWord b c.adl })
  | _ => none

/-- `RTS` (R293). -/
def rtsCycle (s : State) : Option State :=
  match s.m65.t.toNat with
  | 1 => some s.dummyPcRow
  | 2 => some s.dummyPullRow
  | 3 => some (s.readRow s.m65.stackAddr fun b c => Cpu65.next { c with adl := b, s := c.s + 1 })
  | 4 => some (s.readRow s.m65.stackAddr fun b c => Cpu65.next { c with adh := b, pc := mkWord b c.adl })
  | 5 => some (s.readRow s.m65.pc fun _ c => Cpu65.finish { c with pc := c.pc + 1 })
  | _ => none

/-- `PHA` and `PHP` (R298, R299): the byte pushed is given. -/
def pushCycle (v : Byte) (s : State) : Option State :=
  match s.m65.t.toNat with
  | 1 => some s.dummyPcRow
  | 2 => some (s.writeRow s.m65.stackAddr v fun c => Cpu65.finish { c with s := c.s - 1 })
  | _ => none

/-- `PLA` and `PLP` (R300, R301): what the pulled byte does is given. -/
def pullCycle (f : Byte → Cpu65 → Cpu65) (s : State) : Option State :=
  match s.m65.t.toNat with
  | 1 => some s.dummyPcRow
  | 2 => some s.dummyPullRow
  | 3 => some (s.readRow s.m65.stackAddr fun b c => Cpu65.finish (f b c))
  | _ => none

/-- The sequence of a SPECIAL instruction. -/
def specialCycle (mn : Mn) (mode : Mode) (s : State) : Option State :=
  match mn with
  | .brk => trapEntryCycle s
  | .rti => trapReturnCycle s
  | .rts => rtsCycle s
  | .jsr => jsrCycle s
  | .jmp => if mode = .ind then jmpIndCycle s else jmpAbsCycle s
  | .pha => pushCycle s.m65.a s
  | .php => pushCycle (s.m65.p.pack true) s
  | .pla => pullCycle (fun b c => { c with a := b, p := c.p.setNZ b }) s
  | .plp => pullCycle (fun b c => { c with p := c.p.unpack b }) s
  | _ => none

/-- The sequence of a memory operand, by mode. -/
def memoryCycle (mn : Mn) (cls : Cls) (mode : Mode) (s : State) : Option State :=
  match mode with
  | .imm => immCycle mn s
  | .zp => zpCycle mn cls s
  | .zpx => zpIndexedCycle mn cls (fun c => c.x) s
  | .zpy => zpIndexedCycle mn cls (fun c => c.y) s
  | .abs => absCycle mn cls s
  | .abx => absIndexedCycle mn cls (fun c => c.x) s
  | .aby => absIndexedCycle mn cls (fun c => c.y) s
  | .izx => izxCycle mn cls s
  | .izy => izyCycle mn cls s
  | _ => none

/-- Micro-cycle `T` of the instruction `(MN, MODE)`, `T` not 0 (R160): the sequence is selected by the class and
the mode (R126). None when the sequence has no row `T`. -/
def microCycle (mn : Mn) (mode : Mode) (s : State) : Option State :=
  match mn.cls mode with
  | .imp => impCycle mn s
  | .acc => accCycle mn s
  | .br => relCycle mn s
  | .special => specialCycle mn mode s
  | .r => memoryCycle mn .r mode s
  | .w => memoryCycle mn .w mode s
  | .m => memoryCycle mn .m mode s

/-- Run micro-cycles of `(MN, MODE)` up to `Finish`, at most `fuel` of them. -/
def runCycles (mn : Mn) (mode : Mode) : Nat → State → Host.Outcome State Fault Refusal
  | 0, _ => .fault .strayMicroCycle
  | fuel + 1, s =>
    match microCycle mn mode s with
    | none => .fault .strayMicroCycle
    | some s' => if s'.m65.t = 0 then .next s' else runCycles mn mode fuel s'

/-- The whole rest of an instruction: every sequence has at most 6 rows after Fetch (R168). -/
def runInstr65 (mn : Mn) (mode : Mode) (s : State) : Host.Outcome State Fault Refusal :=
  runCycles mn mode 6 s

/-- N, the number of micro-cycles after Fetch (R168), for a state whose `PC` stands at the first operand byte. The
variable counts depend on the page cross of the index add or of the branch. -/
def cycleCount (mn : Mn) (mode : Mode) (s : State) : Nat :=
  let crossed := fun (low idx : Byte) => (indexCarry low idx).toNat
  match mn.cls mode, mode with
  | .imp, _ => 1
  | .acc, _ => 1
  | .br, _ =>
    if branchCond mn s.m65.p then
      let after := s.m65.pc + 1
      if hiByte (branchTarget after (s.peekW s.m65.pc)) = hiByte after then 2 else 3
    else 1
  | .special, _ =>
    match mn with
    | .jmp => if mode = .ind then 4 else 2
    | .jsr => 5
    | .rts => 5
    | .rti => 5
    | .brk => 6
    | .pha => 2
    | .php => 2
    | _ => 3
  | .r, .imm => 1
  | .r, .zp => 2
  | .r, .abx => 3 + crossed (s.peekW s.m65.pc) s.m65.x
  | .r, .aby => 3 + crossed (s.peekW s.m65.pc) s.m65.y
  | .r, .izx => 5
  | .r, .izy => 4 + crossed (s.peekW (zeroPage (s.peekW s.m65.pc))) s.m65.y
  | .r, _ => 3
  | .w, .zp => 2
  | .w, .abx => 4
  | .w, .aby => 4
  | .w, .izx => 5
  | .w, .izy => 5
  | .w, _ => 3
  | .m, .zp => 4
  | .m, .abx => 6
  | .m, _ => 5

end Sys2Proof.Machine
end

