-- ==== Sys2Proof/Machine/M65Alu.lean ====
section
/-! DEFINITION. 6502 family: arithmetic, logic, compare, increment and shift (42_m65_alu.md). A meaning runs the micro-cycles that
follow the Fetch of its opcode, up to `Finish` (40_m65_engine.md R160, R163), so it starts at `T` = 1; each is the
sequence of its addressing mode with its mnemonic's hook. -/

namespace Sys2Proof.Machine

/-- `ADC` izx, 61 (R241). -/
def execAdcIzx (s : State) : Host.Outcome State Fault Refusal := runInstr65 .adc .izx s

/-- `ADC` zp, 65 (R241). -/
def execAdcZp (s : State) : Host.Outcome State Fault Refusal := runInstr65 .adc .zp s

/-- `ADC` imm, 69 (R241). -/
def execAdcImm (s : State) : Host.Outcome State Fault Refusal := runInstr65 .adc .imm s

/-- `ADC` abs, 6D (R241). -/
def execAdcAbs (s : State) : Host.Outcome State Fault Refusal := runInstr65 .adc .abs s

/-- `ADC` izy, 71 (R241). -/
def execAdcIzy (s : State) : Host.Outcome State Fault Refusal := runInstr65 .adc .izy s

/-- `ADC` zpx, 75 (R241). -/
def execAdcZpx (s : State) : Host.Outcome State Fault Refusal := runInstr65 .adc .zpx s

/-- `ADC` aby, 79 (R241). -/
def execAdcAby (s : State) : Host.Outcome State Fault Refusal := runInstr65 .adc .aby s

/-- `ADC` abx, 7D (R241). -/
def execAdcAbx (s : State) : Host.Outcome State Fault Refusal := runInstr65 .adc .abx s

/-- `SBC` izx, E1 (R243). -/
def execSbcIzx (s : State) : Host.Outcome State Fault Refusal := runInstr65 .sbc .izx s

/-- `SBC` zp, E5 (R243). -/
def execSbcZp (s : State) : Host.Outcome State Fault Refusal := runInstr65 .sbc .zp s

/-- `SBC` imm, E9 (R243). -/
def execSbcImm (s : State) : Host.Outcome State Fault Refusal := runInstr65 .sbc .imm s

/-- `SBC` abs, ED (R243). -/
def execSbcAbs (s : State) : Host.Outcome State Fault Refusal := runInstr65 .sbc .abs s

/-- `SBC` izy, F1 (R243). -/
def execSbcIzy (s : State) : Host.Outcome State Fault Refusal := runInstr65 .sbc .izy s

/-- `SBC` zpx, F5 (R243). -/
def execSbcZpx (s : State) : Host.Outcome State Fault Refusal := runInstr65 .sbc .zpx s

/-- `SBC` aby, F9 (R243). -/
def execSbcAby (s : State) : Host.Outcome State Fault Refusal := runInstr65 .sbc .aby s

/-- `SBC` abx, FD (R243). -/
def execSbcAbx (s : State) : Host.Outcome State Fault Refusal := runInstr65 .sbc .abx s

/-- `AND` izx, 21 (R244). -/
def execAndIzx (s : State) : Host.Outcome State Fault Refusal := runInstr65 .and .izx s

/-- `AND` zp, 25 (R244). -/
def execAndZp (s : State) : Host.Outcome State Fault Refusal := runInstr65 .and .zp s

/-- `AND` imm, 29 (R244). -/
def execAndImm (s : State) : Host.Outcome State Fault Refusal := runInstr65 .and .imm s

/-- `AND` abs, 2D (R244). -/
def execAndAbs (s : State) : Host.Outcome State Fault Refusal := runInstr65 .and .abs s

/-- `AND` izy, 31 (R244). -/
def execAndIzy (s : State) : Host.Outcome State Fault Refusal := runInstr65 .and .izy s

/-- `AND` zpx, 35 (R244). -/
def execAndZpx (s : State) : Host.Outcome State Fault Refusal := runInstr65 .and .zpx s

/-- `AND` aby, 39 (R244). -/
def execAndAby (s : State) : Host.Outcome State Fault Refusal := runInstr65 .and .aby s

/-- `AND` abx, 3D (R244). -/
def execAndAbx (s : State) : Host.Outcome State Fault Refusal := runInstr65 .and .abx s

/-- `ORA` izx, 01 (R245). -/
def execOraIzx (s : State) : Host.Outcome State Fault Refusal := runInstr65 .ora .izx s

/-- `ORA` zp, 05 (R245). -/
def execOraZp (s : State) : Host.Outcome State Fault Refusal := runInstr65 .ora .zp s

/-- `ORA` imm, 09 (R245). -/
def execOraImm (s : State) : Host.Outcome State Fault Refusal := runInstr65 .ora .imm s

/-- `ORA` abs, 0D (R245). -/
def execOraAbs (s : State) : Host.Outcome State Fault Refusal := runInstr65 .ora .abs s

/-- `ORA` izy, 11 (R245). -/
def execOraIzy (s : State) : Host.Outcome State Fault Refusal := runInstr65 .ora .izy s

/-- `ORA` zpx, 15 (R245). -/
def execOraZpx (s : State) : Host.Outcome State Fault Refusal := runInstr65 .ora .zpx s

/-- `ORA` aby, 19 (R245). -/
def execOraAby (s : State) : Host.Outcome State Fault Refusal := runInstr65 .ora .aby s

/-- `ORA` abx, 1D (R245). -/
def execOraAbx (s : State) : Host.Outcome State Fault Refusal := runInstr65 .ora .abx s

/-- `EOR` izx, 41 (R246). -/
def execEorIzx (s : State) : Host.Outcome State Fault Refusal := runInstr65 .eor .izx s

/-- `EOR` zp, 45 (R246). -/
def execEorZp (s : State) : Host.Outcome State Fault Refusal := runInstr65 .eor .zp s

/-- `EOR` imm, 49 (R246). -/
def execEorImm (s : State) : Host.Outcome State Fault Refusal := runInstr65 .eor .imm s

/-- `EOR` abs, 4D (R246). -/
def execEorAbs (s : State) : Host.Outcome State Fault Refusal := runInstr65 .eor .abs s

/-- `EOR` izy, 51 (R246). -/
def execEorIzy (s : State) : Host.Outcome State Fault Refusal := runInstr65 .eor .izy s

/-- `EOR` zpx, 55 (R246). -/
def execEorZpx (s : State) : Host.Outcome State Fault Refusal := runInstr65 .eor .zpx s

/-- `EOR` aby, 59 (R246). -/
def execEorAby (s : State) : Host.Outcome State Fault Refusal := runInstr65 .eor .aby s

/-- `EOR` abx, 5D (R246). -/
def execEorAbx (s : State) : Host.Outcome State Fault Refusal := runInstr65 .eor .abx s

/-- `CMP` izx, C1 (R247). -/
def execCmpIzx (s : State) : Host.Outcome State Fault Refusal := runInstr65 .cmp .izx s

/-- `CMP` zp, C5 (R247). -/
def execCmpZp (s : State) : Host.Outcome State Fault Refusal := runInstr65 .cmp .zp s

/-- `CMP` imm, C9 (R247). -/
def execCmpImm (s : State) : Host.Outcome State Fault Refusal := runInstr65 .cmp .imm s

/-- `CMP` abs, CD (R247). -/
def execCmpAbs (s : State) : Host.Outcome State Fault Refusal := runInstr65 .cmp .abs s

/-- `CMP` izy, D1 (R247). -/
def execCmpIzy (s : State) : Host.Outcome State Fault Refusal := runInstr65 .cmp .izy s

/-- `CMP` zpx, D5 (R247). -/
def execCmpZpx (s : State) : Host.Outcome State Fault Refusal := runInstr65 .cmp .zpx s

/-- `CMP` aby, D9 (R247). -/
def execCmpAby (s : State) : Host.Outcome State Fault Refusal := runInstr65 .cmp .aby s

/-- `CMP` abx, DD (R247). -/
def execCmpAbx (s : State) : Host.Outcome State Fault Refusal := runInstr65 .cmp .abx s

/-- `CPX` imm, E0 (R248). -/
def execCpxImm (s : State) : Host.Outcome State Fault Refusal := runInstr65 .cpx .imm s

/-- `CPX` zp, E4 (R248). -/
def execCpxZp (s : State) : Host.Outcome State Fault Refusal := runInstr65 .cpx .zp s

/-- `CPX` abs, EC (R248). -/
def execCpxAbs (s : State) : Host.Outcome State Fault Refusal := runInstr65 .cpx .abs s

/-- `CPY` imm, C0 (R249). -/
def execCpyImm (s : State) : Host.Outcome State Fault Refusal := runInstr65 .cpy .imm s

/-- `CPY` zp, C4 (R249). -/
def execCpyZp (s : State) : Host.Outcome State Fault Refusal := runInstr65 .cpy .zp s

/-- `CPY` abs, CC (R249). -/
def execCpyAbs (s : State) : Host.Outcome State Fault Refusal := runInstr65 .cpy .abs s

/-- `BIT` zp, 24 (R250). -/
def execBitZp (s : State) : Host.Outcome State Fault Refusal := runInstr65 .bit .zp s

/-- `BIT` abs, 2C (R250). -/
def execBitAbs (s : State) : Host.Outcome State Fault Refusal := runInstr65 .bit .abs s

/-- `INC` zp, E6 (R251). -/
def execIncZp (s : State) : Host.Outcome State Fault Refusal := runInstr65 .inc .zp s

/-- `INC` abs, EE (R251). -/
def execIncAbs (s : State) : Host.Outcome State Fault Refusal := runInstr65 .inc .abs s

/-- `INC` zpx, F6 (R251). -/
def execIncZpx (s : State) : Host.Outcome State Fault Refusal := runInstr65 .inc .zpx s

/-- `INC` abx, FE (R251). -/
def execIncAbx (s : State) : Host.Outcome State Fault Refusal := runInstr65 .inc .abx s

/-- `DEC` zp, C6 (R252). -/
def execDecZp (s : State) : Host.Outcome State Fault Refusal := runInstr65 .dec .zp s

/-- `DEC` abs, CE (R252). -/
def execDecAbs (s : State) : Host.Outcome State Fault Refusal := runInstr65 .dec .abs s

/-- `DEC` zpx, D6 (R252). -/
def execDecZpx (s : State) : Host.Outcome State Fault Refusal := runInstr65 .dec .zpx s

/-- `DEC` abx, DE (R252). -/
def execDecAbx (s : State) : Host.Outcome State Fault Refusal := runInstr65 .dec .abx s

/-- `INX` imp, E8 (R253). -/
def execInx (s : State) : Host.Outcome State Fault Refusal := runInstr65 .inx .imp s

/-- `INY` imp, C8 (R254). -/
def execIny (s : State) : Host.Outcome State Fault Refusal := runInstr65 .iny .imp s

/-- `DEX` imp, CA (R255). -/
def execDex (s : State) : Host.Outcome State Fault Refusal := runInstr65 .dex .imp s

/-- `DEY` imp, 88 (R256). -/
def execDey (s : State) : Host.Outcome State Fault Refusal := runInstr65 .dey .imp s

/-- `ASL` zp, 06 (R257). -/
def execAslZp (s : State) : Host.Outcome State Fault Refusal := runInstr65 .asl .zp s

/-- `ASL` acc, 0A (R257). -/
def execAslAcc (s : State) : Host.Outcome State Fault Refusal := runInstr65 .asl .acc s

/-- `ASL` abs, 0E (R257). -/
def execAslAbs (s : State) : Host.Outcome State Fault Refusal := runInstr65 .asl .abs s

/-- `ASL` zpx, 16 (R257). -/
def execAslZpx (s : State) : Host.Outcome State Fault Refusal := runInstr65 .asl .zpx s

/-- `ASL` abx, 1E (R257). -/
def execAslAbx (s : State) : Host.Outcome State Fault Refusal := runInstr65 .asl .abx s

/-- `LSR` zp, 46 (R258). -/
def execLsrZp (s : State) : Host.Outcome State Fault Refusal := runInstr65 .lsr .zp s

/-- `LSR` acc, 4A (R258). -/
def execLsrAcc (s : State) : Host.Outcome State Fault Refusal := runInstr65 .lsr .acc s

/-- `LSR` abs, 4E (R258). -/
def execLsrAbs (s : State) : Host.Outcome State Fault Refusal := runInstr65 .lsr .abs s

/-- `LSR` zpx, 56 (R258). -/
def execLsrZpx (s : State) : Host.Outcome State Fault Refusal := runInstr65 .lsr .zpx s

/-- `LSR` abx, 5E (R258). -/
def execLsrAbx (s : State) : Host.Outcome State Fault Refusal := runInstr65 .lsr .abx s

/-- `ROL` zp, 26 (R259). -/
def execRolZp (s : State) : Host.Outcome State Fault Refusal := runInstr65 .rol .zp s

/-- `ROL` acc, 2A (R259). -/
def execRolAcc (s : State) : Host.Outcome State Fault Refusal := runInstr65 .rol .acc s

/-- `ROL` abs, 2E (R259). -/
def execRolAbs (s : State) : Host.Outcome State Fault Refusal := runInstr65 .rol .abs s

/-- `ROL` zpx, 36 (R259). -/
def execRolZpx (s : State) : Host.Outcome State Fault Refusal := runInstr65 .rol .zpx s

/-- `ROL` abx, 3E (R259). -/
def execRolAbx (s : State) : Host.Outcome State Fault Refusal := runInstr65 .rol .abx s

/-- `ROR` zp, 66 (R260). -/
def execRorZp (s : State) : Host.Outcome State Fault Refusal := runInstr65 .ror .zp s

/-- `ROR` acc, 6A (R260). -/
def execRorAcc (s : State) : Host.Outcome State Fault Refusal := runInstr65 .ror .acc s

/-- `ROR` abs, 6E (R260). -/
def execRorAbs (s : State) : Host.Outcome State Fault Refusal := runInstr65 .ror .abs s

/-- `ROR` zpx, 76 (R260). -/
def execRorZpx (s : State) : Host.Outcome State Fault Refusal := runInstr65 .ror .zpx s

/-- `ROR` abx, 7E (R260). -/
def execRorAbx (s : State) : Host.Outcome State Fault Refusal := runInstr65 .ror .abx s

end Sys2Proof.Machine
end

