-- ==== Sys2Proof/Machine/M65Control.lean ====
section
/-! DEFINITION. 6502 family: branches, jumps, subroutines, stack, flag and system instructions (43_m65_control.md). A meaning runs the micro-cycles that
follow the Fetch of its opcode, up to `Finish` (40_m65_engine.md R160, R163), so it starts at `T` = 1; each is the
sequence of its addressing mode with its mnemonic's hook. -/

namespace Sys2Proof.Machine

/-- `BCC` rel, 90 (R280). -/
def execBcc (s : State) : Host.Outcome State Fault Refusal := runInstr65 .bcc .rel s

/-- `BCS` rel, B0 (R281). -/
def execBcs (s : State) : Host.Outcome State Fault Refusal := runInstr65 .bcs .rel s

/-- `BEQ` rel, F0 (R282). -/
def execBeq (s : State) : Host.Outcome State Fault Refusal := runInstr65 .beq .rel s

/-- `BMI` rel, 30 (R283). -/
def execBmi (s : State) : Host.Outcome State Fault Refusal := runInstr65 .bmi .rel s

/-- `BNE` rel, D0 (R284). -/
def execBne (s : State) : Host.Outcome State Fault Refusal := runInstr65 .bne .rel s

/-- `BPL` rel, 10 (R285). -/
def execBpl (s : State) : Host.Outcome State Fault Refusal := runInstr65 .bpl .rel s

/-- `BVC` rel, 50 (R286). -/
def execBvc (s : State) : Host.Outcome State Fault Refusal := runInstr65 .bvc .rel s

/-- `BVS` rel, 70 (R287). -/
def execBvs (s : State) : Host.Outcome State Fault Refusal := runInstr65 .bvs .rel s

/-- `JMP` abs, 4C (R290). -/
def execJmpAbs (s : State) : Host.Outcome State Fault Refusal := runInstr65 .jmp .abs s

/-- `JMP` ind, 6C (R291). -/
def execJmpInd (s : State) : Host.Outcome State Fault Refusal := runInstr65 .jmp .ind s

/-- `JSR` abs, 20 (R292). -/
def execJsr (s : State) : Host.Outcome State Fault Refusal := runInstr65 .jsr .abs s

/-- `RTS` imp, 60 (R293). -/
def execRts (s : State) : Host.Outcome State Fault Refusal := runInstr65 .rts .imp s

/-- `RTI` imp, 40 (R294). -/
def execRti (s : State) : Host.Outcome State Fault Refusal := runInstr65 .rti .imp s

/-- `BRK` imp, 00 (R296). -/
def execBrk (s : State) : Host.Outcome State Fault Refusal := runInstr65 .brk .imp s

/-- `NOP` imp, EA (R297). -/
def execNop (s : State) : Host.Outcome State Fault Refusal := runInstr65 .nop .imp s

/-- `PHA` imp, 48 (R298). -/
def execPha (s : State) : Host.Outcome State Fault Refusal := runInstr65 .pha .imp s

/-- `PHP` imp, 08 (R299). -/
def execPhp (s : State) : Host.Outcome State Fault Refusal := runInstr65 .php .imp s

/-- `PLA` imp, 68 (R300). -/
def execPla (s : State) : Host.Outcome State Fault Refusal := runInstr65 .pla .imp s

/-- `PLP` imp, 28 (R301). -/
def execPlp (s : State) : Host.Outcome State Fault Refusal := runInstr65 .plp .imp s

/-- `CLC` imp, 18 (R302). -/
def execClc (s : State) : Host.Outcome State Fault Refusal := runInstr65 .clc .imp s

/-- `SEC` imp, 38 (R303). -/
def execSec (s : State) : Host.Outcome State Fault Refusal := runInstr65 .sec .imp s

/-- `CLI` imp, 58 (R304). -/
def execCli (s : State) : Host.Outcome State Fault Refusal := runInstr65 .cli .imp s

/-- `SEI` imp, 78 (R305). -/
def execSei (s : State) : Host.Outcome State Fault Refusal := runInstr65 .sei .imp s

/-- `CLV` imp, B8 (R306). -/
def execClv (s : State) : Host.Outcome State Fault Refusal := runInstr65 .clv .imp s

/-- `CLD` imp, D8 (R307). -/
def execCld (s : State) : Host.Outcome State Fault Refusal := runInstr65 .cld .imp s

/-- `SED` imp, F8 (R308). -/
def execSed (s : State) : Host.Outcome State Fault Refusal := runInstr65 .sed .imp s

end Sys2Proof.Machine
end

