-- ==== Sys2Proof/Machine/M65Load.lean ====
section
/-! DEFINITION. 6502 family: loads, stores and transfers (41_m65_load_store_transfer.md). A meaning runs the micro-cycles that
follow the Fetch of its opcode, up to `Finish` (40_m65_engine.md R160, R163), so it starts at `T` = 1; each is the
sequence of its addressing mode with its mnemonic's hook. -/

namespace Sys2Proof.Machine

/-- `LDA` izx, A1 (R220). -/
def execLdaIzx (s : State) : Host.Outcome State Fault Refusal := runInstr65 .lda .izx s

/-- `LDA` zp, A5 (R220). -/
def execLdaZp (s : State) : Host.Outcome State Fault Refusal := runInstr65 .lda .zp s

/-- `LDA` imm, A9 (R220). -/
def execLdaImm (s : State) : Host.Outcome State Fault Refusal := runInstr65 .lda .imm s

/-- `LDA` abs, AD (R220). -/
def execLdaAbs (s : State) : Host.Outcome State Fault Refusal := runInstr65 .lda .abs s

/-- `LDA` izy, B1 (R220). -/
def execLdaIzy (s : State) : Host.Outcome State Fault Refusal := runInstr65 .lda .izy s

/-- `LDA` zpx, B5 (R220). -/
def execLdaZpx (s : State) : Host.Outcome State Fault Refusal := runInstr65 .lda .zpx s

/-- `LDA` aby, B9 (R220). -/
def execLdaAby (s : State) : Host.Outcome State Fault Refusal := runInstr65 .lda .aby s

/-- `LDA` abx, BD (R220). -/
def execLdaAbx (s : State) : Host.Outcome State Fault Refusal := runInstr65 .lda .abx s

/-- `LDX` imm, A2 (R221). -/
def execLdxImm (s : State) : Host.Outcome State Fault Refusal := runInstr65 .ldx .imm s

/-- `LDX` zp, A6 (R221). -/
def execLdxZp (s : State) : Host.Outcome State Fault Refusal := runInstr65 .ldx .zp s

/-- `LDX` abs, AE (R221). -/
def execLdxAbs (s : State) : Host.Outcome State Fault Refusal := runInstr65 .ldx .abs s

/-- `LDX` zpy, B6 (R221). -/
def execLdxZpy (s : State) : Host.Outcome State Fault Refusal := runInstr65 .ldx .zpy s

/-- `LDX` aby, BE (R221). -/
def execLdxAby (s : State) : Host.Outcome State Fault Refusal := runInstr65 .ldx .aby s

/-- `LDY` imm, A0 (R222). -/
def execLdyImm (s : State) : Host.Outcome State Fault Refusal := runInstr65 .ldy .imm s

/-- `LDY` zp, A4 (R222). -/
def execLdyZp (s : State) : Host.Outcome State Fault Refusal := runInstr65 .ldy .zp s

/-- `LDY` abs, AC (R222). -/
def execLdyAbs (s : State) : Host.Outcome State Fault Refusal := runInstr65 .ldy .abs s

/-- `LDY` zpx, B4 (R222). -/
def execLdyZpx (s : State) : Host.Outcome State Fault Refusal := runInstr65 .ldy .zpx s

/-- `LDY` abx, BC (R222). -/
def execLdyAbx (s : State) : Host.Outcome State Fault Refusal := runInstr65 .ldy .abx s

/-- `STA` izx, 81 (R223). -/
def execStaIzx (s : State) : Host.Outcome State Fault Refusal := runInstr65 .sta .izx s

/-- `STA` zp, 85 (R223). -/
def execStaZp (s : State) : Host.Outcome State Fault Refusal := runInstr65 .sta .zp s

/-- `STA` abs, 8D (R223). -/
def execStaAbs (s : State) : Host.Outcome State Fault Refusal := runInstr65 .sta .abs s

/-- `STA` izy, 91 (R223). -/
def execStaIzy (s : State) : Host.Outcome State Fault Refusal := runInstr65 .sta .izy s

/-- `STA` zpx, 95 (R223). -/
def execStaZpx (s : State) : Host.Outcome State Fault Refusal := runInstr65 .sta .zpx s

/-- `STA` aby, 99 (R223). -/
def execStaAby (s : State) : Host.Outcome State Fault Refusal := runInstr65 .sta .aby s

/-- `STA` abx, 9D (R223). -/
def execStaAbx (s : State) : Host.Outcome State Fault Refusal := runInstr65 .sta .abx s

/-- `STX` zp, 86 (R224). -/
def execStxZp (s : State) : Host.Outcome State Fault Refusal := runInstr65 .stx .zp s

/-- `STX` abs, 8E (R224). -/
def execStxAbs (s : State) : Host.Outcome State Fault Refusal := runInstr65 .stx .abs s

/-- `STX` zpy, 96 (R224). -/
def execStxZpy (s : State) : Host.Outcome State Fault Refusal := runInstr65 .stx .zpy s

/-- `STY` zp, 84 (R225). -/
def execStyZp (s : State) : Host.Outcome State Fault Refusal := runInstr65 .sty .zp s

/-- `STY` abs, 8C (R225). -/
def execStyAbs (s : State) : Host.Outcome State Fault Refusal := runInstr65 .sty .abs s

/-- `STY` zpx, 94 (R225). -/
def execStyZpx (s : State) : Host.Outcome State Fault Refusal := runInstr65 .sty .zpx s

/-- `TAX` imp, AA (R226). -/
def execTax (s : State) : Host.Outcome State Fault Refusal := runInstr65 .tax .imp s

/-- `TAY` imp, A8 (R227). -/
def execTay (s : State) : Host.Outcome State Fault Refusal := runInstr65 .tay .imp s

/-- `TXA` imp, 8A (R228). -/
def execTxa (s : State) : Host.Outcome State Fault Refusal := runInstr65 .txa .imp s

/-- `TYA` imp, 98 (R229). -/
def execTya (s : State) : Host.Outcome State Fault Refusal := runInstr65 .tya .imp s

/-- `TSX` imp, BA (R230). -/
def execTsx (s : State) : Host.Outcome State Fault Refusal := runInstr65 .tsx .imp s

/-- `TXS` imp, 9A (R231). -/
def execTxs (s : State) : Host.Outcome State Fault Refusal := runInstr65 .txs .imp s

end Sys2Proof.Machine
end

