-- ==== Sys2Proof/Machine/XoExt.lean ====
section
/-! DEFINITION. The XOCHIP extensions outside the display (48_xo_ext.md R420 to R428). `PC` already stands after the
opcode (45_c8_engine.md R322). -/

namespace Sys2Proof.Machine

/-- `SAVE Vx-Vy` (R420); `I` is unchanged. -/
def execSaveRange (x y : BitVec 4) (s : State) : Host.Outcome State Fault Refusal :=
  .next (s.storeRegs s.c8.i.toNat (regsBetween x y))

/-- `LOAD Vx-Vy` (R421); `I` is unchanged. -/
def execLoadRange (x y : BitVec 4) (s : State) : Host.Outcome State Fault Refusal :=
  .next (s.loadRegs s.c8.i.toNat (regsBetween x y))

/-- `LD I, long NNNN` (R422): the big-endian word at `PC`, then `PC` moves past it. -/
def execLdILong (s : State) : Host.Outcome State Fault Refusal :=
  .next ((s.afterRead2 s.c8.pc.toNat).updC8 fun c =>
    { c with i := s.readVal2 s.c8.pc.toNat, pc := c.pc + 2 })

/-- `PLANE n` (R423): the field itself, not a register. -/
def execPlane (n : BitVec 4) (s : State) : Host.Outcome State Fault Refusal :=
  .next (s.updXo fun x => { x with plane := n })

/-- `PATTERN[i] <- MemRead(a + i, 1)` for i ascending from `i` (R424). -/
def State.loadPattern (s : State) (a i : Nat) : Nat → State
  | 0 => s
  | k + 1 =>
    State.loadPattern
      ((s.afterRead (a + i)).updXo fun x => { x with pattern := x.pattern.setIfInBounds i (s.readVal (a + i)) })
      a (i + 1) k

/-- `AUDIO` (R424): sixteen bytes; `I` is unchanged. -/
def execAudio (s : State) : Host.Outcome State Fault Refusal := .next (s.loadPattern s.c8.i.toNat 0 16)

/-- `LD HF, Vx` (R425): the address of an 8 x 10 glyph. -/
def execLdHf (x : BitVec 4) (s : State) : Host.Outcome State Fault Refusal :=
  .next (s.setI (BitVec.ofNat 16 (bigfontBase + 10 * (lowNibble (s.reg x)).toNat)))

/-- `PITCH Vx` (R426). -/
def execPitch (x : BitVec 4) (s : State) : Host.Outcome State Fault Refusal :=
  .next (s.updXo fun o => { o with pitch := s.reg x })

/-- `FLAGS[r] <- V[r]` for the registers of a list (R427). -/
def State.saveFlags (s : State) : List (BitVec 4) → State
  | [] => s
  | r :: rest => State.saveFlags (s.updXo fun o => { o with flags := o.flags.set r.toNat (s.reg r) r.isLt }) rest

/-- `LD R, Vx` (R427). -/
def execLdRVx (x : BitVec 4) (s : State) : Host.Outcome State Fault Refusal := .next (s.saveFlags (regsTo x))

/-- `V[r] <- FLAGS[r]` for the registers of a list (R428). -/
def State.restoreFlags (s : State) : List (BitVec 4) → State
  | [] => s
  | r :: rest => State.restoreFlags (s.setReg r (s.xo.flags[r.toNat]'r.isLt)) rest

/-- `LD Vx, R` (R428). -/
def execLdVxR (x : BitVec 4) (s : State) : Host.Outcome State Fault Refusal := .next (s.restoreFlags (regsTo x))

end Sys2Proof.Machine
end

