-- ==== Sys2Proof/Machine/Dispatch.lean ====
section
/-! DEFINITION. The meaning of every instruction: one arm per row of the opcode table. -/

namespace Sys2Proof.Machine

def exec (i : Instr) (s : State) : Host.Outcome State Fault Refusal :=
  match i with
  | .brk => Sys2Proof.Machine.execBrk s
  | .oraIzx => Sys2Proof.Machine.execOraIzx s
  | .oraZp => Sys2Proof.Machine.execOraZp s
  | .aslZp => Sys2Proof.Machine.execAslZp s
  | .php => Sys2Proof.Machine.execPhp s
  | .oraImm => Sys2Proof.Machine.execOraImm s
  | .aslAcc => Sys2Proof.Machine.execAslAcc s
  | .oraAbs => Sys2Proof.Machine.execOraAbs s
  | .aslAbs => Sys2Proof.Machine.execAslAbs s
  | .bpl => Sys2Proof.Machine.execBpl s
  | .oraIzy => Sys2Proof.Machine.execOraIzy s
  | .oraZpx => Sys2Proof.Machine.execOraZpx s
  | .aslZpx => Sys2Proof.Machine.execAslZpx s
  | .clc => Sys2Proof.Machine.execClc s
  | .oraAby => Sys2Proof.Machine.execOraAby s
  | .oraAbx => Sys2Proof.Machine.execOraAbx s
  | .aslAbx => Sys2Proof.Machine.execAslAbx s
  | .jsr => Sys2Proof.Machine.execJsr s
  | .andIzx => Sys2Proof.Machine.execAndIzx s
  | .bitZp => Sys2Proof.Machine.execBitZp s
  | .andZp => Sys2Proof.Machine.execAndZp s
  | .rolZp => Sys2Proof.Machine.execRolZp s
  | .plp => Sys2Proof.Machine.execPlp s
  | .andImm => Sys2Proof.Machine.execAndImm s
  | .rolAcc => Sys2Proof.Machine.execRolAcc s
  | .bitAbs => Sys2Proof.Machine.execBitAbs s
  | .andAbs => Sys2Proof.Machine.execAndAbs s
  | .rolAbs => Sys2Proof.Machine.execRolAbs s
  | .bmi => Sys2Proof.Machine.execBmi s
  | .andIzy => Sys2Proof.Machine.execAndIzy s
  | .andZpx => Sys2Proof.Machine.execAndZpx s
  | .rolZpx => Sys2Proof.Machine.execRolZpx s
  | .sec => Sys2Proof.Machine.execSec s
  | .andAby => Sys2Proof.Machine.execAndAby s
  | .andAbx => Sys2Proof.Machine.execAndAbx s
  | .rolAbx => Sys2Proof.Machine.execRolAbx s
  | .rti => Sys2Proof.Machine.execRti s
  | .eorIzx => Sys2Proof.Machine.execEorIzx s
  | .eorZp => Sys2Proof.Machine.execEorZp s
  | .lsrZp => Sys2Proof.Machine.execLsrZp s
  | .pha => Sys2Proof.Machine.execPha s
  | .eorImm => Sys2Proof.Machine.execEorImm s
  | .lsrAcc => Sys2Proof.Machine.execLsrAcc s
  | .jmpAbs => Sys2Proof.Machine.execJmpAbs s
  | .eorAbs => Sys2Proof.Machine.execEorAbs s
  | .lsrAbs => Sys2Proof.Machine.execLsrAbs s
  | .bvc => Sys2Proof.Machine.execBvc s
  | .eorIzy => Sys2Proof.Machine.execEorIzy s
  | .eorZpx => Sys2Proof.Machine.execEorZpx s
  | .lsrZpx => Sys2Proof.Machine.execLsrZpx s
  | .cli => Sys2Proof.Machine.execCli s
  | .eorAby => Sys2Proof.Machine.execEorAby s
  | .eorAbx => Sys2Proof.Machine.execEorAbx s
  | .lsrAbx => Sys2Proof.Machine.execLsrAbx s
  | .rts => Sys2Proof.Machine.execRts s
  | .adcIzx => Sys2Proof.Machine.execAdcIzx s
  | .adcZp => Sys2Proof.Machine.execAdcZp s
  | .rorZp => Sys2Proof.Machine.execRorZp s
  | .pla => Sys2Proof.Machine.execPla s
  | .adcImm => Sys2Proof.Machine.execAdcImm s
  | .rorAcc => Sys2Proof.Machine.execRorAcc s
  | .jmpInd => Sys2Proof.Machine.execJmpInd s
  | .adcAbs => Sys2Proof.Machine.execAdcAbs s
  | .rorAbs => Sys2Proof.Machine.execRorAbs s
  | .bvs => Sys2Proof.Machine.execBvs s
  | .adcIzy => Sys2Proof.Machine.execAdcIzy s
  | .adcZpx => Sys2Proof.Machine.execAdcZpx s
  | .rorZpx => Sys2Proof.Machine.execRorZpx s
  | .sei => Sys2Proof.Machine.execSei s
  | .adcAby => Sys2Proof.Machine.execAdcAby s
  | .adcAbx => Sys2Proof.Machine.execAdcAbx s
  | .rorAbx => Sys2Proof.Machine.execRorAbx s
  | .staIzx => Sys2Proof.Machine.execStaIzx s
  | .styZp => Sys2Proof.Machine.execStyZp s
  | .staZp => Sys2Proof.Machine.execStaZp s
  | .stxZp => Sys2Proof.Machine.execStxZp s
  | .dey => Sys2Proof.Machine.execDey s
  | .txa => Sys2Proof.Machine.execTxa s
  | .styAbs => Sys2Proof.Machine.execStyAbs s
  | .staAbs => Sys2Proof.Machine.execStaAbs s
  | .stxAbs => Sys2Proof.Machine.execStxAbs s
  | .bcc => Sys2Proof.Machine.execBcc s
  | .staIzy => Sys2Proof.Machine.execStaIzy s
  | .styZpx => Sys2Proof.Machine.execStyZpx s
  | .staZpx => Sys2Proof.Machine.execStaZpx s
  | .stxZpy => Sys2Proof.Machine.execStxZpy s
  | .tya => Sys2Proof.Machine.execTya s
  | .staAby => Sys2Proof.Machine.execStaAby s
  | .txs => Sys2Proof.Machine.execTxs s
  | .staAbx => Sys2Proof.Machine.execStaAbx s
  | .ldyImm => Sys2Proof.Machine.execLdyImm s
  | .ldaIzx => Sys2Proof.Machine.execLdaIzx s
  | .ldxImm => Sys2Proof.Machine.execLdxImm s
  | .ldyZp => Sys2Proof.Machine.execLdyZp s
  | .ldaZp => Sys2Proof.Machine.execLdaZp s
  | .ldxZp => Sys2Proof.Machine.execLdxZp s
  | .tay => Sys2Proof.Machine.execTay s
  | .ldaImm => Sys2Proof.Machine.execLdaImm s
  | .tax => Sys2Proof.Machine.execTax s
  | .ldyAbs => Sys2Proof.Machine.execLdyAbs s
  | .ldaAbs => Sys2Proof.Machine.execLdaAbs s
  | .ldxAbs => Sys2Proof.Machine.execLdxAbs s
  | .bcs => Sys2Proof.Machine.execBcs s
  | .ldaIzy => Sys2Proof.Machine.execLdaIzy s
  | .ldyZpx => Sys2Proof.Machine.execLdyZpx s
  | .ldaZpx => Sys2Proof.Machine.execLdaZpx s
  | .ldxZpy => Sys2Proof.Machine.execLdxZpy s
  | .clv => Sys2Proof.Machine.execClv s
  | .ldaAby => Sys2Proof.Machine.execLdaAby s
  | .tsx => Sys2Proof.Machine.execTsx s
  | .ldyAbx => Sys2Proof.Machine.execLdyAbx s
  | .ldaAbx => Sys2Proof.Machine.execLdaAbx s
  | .ldxAby => Sys2Proof.Machine.execLdxAby s
  | .cpyImm => Sys2Proof.Machine.execCpyImm s
  | .cmpIzx => Sys2Proof.Machine.execCmpIzx s
  | .cpyZp => Sys2Proof.Machine.execCpyZp s
  | .cmpZp => Sys2Proof.Machine.execCmpZp s
  | .decZp => Sys2Proof.Machine.execDecZp s
  | .iny => Sys2Proof.Machine.execIny s
  | .cmpImm => Sys2Proof.Machine.execCmpImm s
  | .dex => Sys2Proof.Machine.execDex s
  | .cpyAbs => Sys2Proof.Machine.execCpyAbs s
  | .cmpAbs => Sys2Proof.Machine.execCmpAbs s
  | .decAbs => Sys2Proof.Machine.execDecAbs s
  | .bne => Sys2Proof.Machine.execBne s
  | .cmpIzy => Sys2Proof.Machine.execCmpIzy s
  | .cmpZpx => Sys2Proof.Machine.execCmpZpx s
  | .decZpx => Sys2Proof.Machine.execDecZpx s
  | .cld => Sys2Proof.Machine.execCld s
  | .cmpAby => Sys2Proof.Machine.execCmpAby s
  | .cmpAbx => Sys2Proof.Machine.execCmpAbx s
  | .decAbx => Sys2Proof.Machine.execDecAbx s
  | .cpxImm => Sys2Proof.Machine.execCpxImm s
  | .sbcIzx => Sys2Proof.Machine.execSbcIzx s
  | .cpxZp => Sys2Proof.Machine.execCpxZp s
  | .sbcZp => Sys2Proof.Machine.execSbcZp s
  | .incZp => Sys2Proof.Machine.execIncZp s
  | .inx => Sys2Proof.Machine.execInx s
  | .sbcImm => Sys2Proof.Machine.execSbcImm s
  | .nop => Sys2Proof.Machine.execNop s
  | .cpxAbs => Sys2Proof.Machine.execCpxAbs s
  | .sbcAbs => Sys2Proof.Machine.execSbcAbs s
  | .incAbs => Sys2Proof.Machine.execIncAbs s
  | .beq => Sys2Proof.Machine.execBeq s
  | .sbcIzy => Sys2Proof.Machine.execSbcIzy s
  | .sbcZpx => Sys2Proof.Machine.execSbcZpx s
  | .incZpx => Sys2Proof.Machine.execIncZpx s
  | .sed => Sys2Proof.Machine.execSed s
  | .sbcAby => Sys2Proof.Machine.execSbcAby s
  | .sbcAbx => Sys2Proof.Machine.execSbcAbx s
  | .incAbx => Sys2Proof.Machine.execIncAbx s
  | .cls => Sys2Proof.Machine.execCls s
  | .ret => Sys2Proof.Machine.execRet s
  | .jp nnn => Sys2Proof.Machine.execJp nnn s
  | .call nnn => Sys2Proof.Machine.execCall nnn s
  | .seImm x nn => Sys2Proof.Machine.execSeImm x nn s
  | .sneImm x nn => Sys2Proof.Machine.execSneImm x nn s
  | .seReg x y => Sys2Proof.Machine.execSeReg x y s
  | .ldImm x nn => Sys2Proof.Machine.execLdImm x nn s
  | .addImm x nn => Sys2Proof.Machine.execAddImm x nn s
  | .ldReg x y => Sys2Proof.Machine.execLdReg x y s
  | .orReg x y => Sys2Proof.Machine.execOrReg x y s
  | .andReg x y => Sys2Proof.Machine.execAndReg x y s
  | .xorReg x y => Sys2Proof.Machine.execXorReg x y s
  | .addReg x y => Sys2Proof.Machine.execAddReg x y s
  | .subReg x y => Sys2Proof.Machine.execSubReg x y s
  | .shrReg x y => Sys2Proof.Machine.execShrReg x y s
  | .subnReg x y => Sys2Proof.Machine.execSubnReg x y s
  | .shlReg x y => Sys2Proof.Machine.execShlReg x y s
  | .sneReg x y => Sys2Proof.Machine.execSneReg x y s
  | .ldI nnn => Sys2Proof.Machine.execLdI nnn s
  | .jpV0 nnn => Sys2Proof.Machine.execJpV0 nnn s
  | .rnd x nn => Sys2Proof.Machine.execRnd x nn s
  | .drw x y n => Sys2Proof.Machine.execDrw x y n s
  | .skp x => Sys2Proof.Machine.execSkp x s
  | .sknp x => Sys2Proof.Machine.execSknp x s
  | .ldVxDt x => Sys2Proof.Machine.execLdVxDt x s
  | .ldVxK x => Sys2Proof.Machine.execLdVxK x s
  | .ldDtVx x => Sys2Proof.Machine.execLdDtVx x s
  | .ldStVx x => Sys2Proof.Machine.execLdStVx x s
  | .addI x => Sys2Proof.Machine.execAddI x s
  | .ldF x => Sys2Proof.Machine.execLdF x s
  | .ldB x => Sys2Proof.Machine.execLdB x s
  | .ldMemVx x => Sys2Proof.Machine.execLdMemVx x s
  | .ldVxMem x => Sys2Proof.Machine.execLdVxMem x s
  | .scd n => Sys2Proof.Machine.execScd n s
  | .scu n => Sys2Proof.Machine.execScu n s
  | .scr => Sys2Proof.Machine.execScr s
  | .scl => Sys2Proof.Machine.execScl s
  | .low => Sys2Proof.Machine.execLow s
  | .high => Sys2Proof.Machine.execHigh s
  | .saveRange x y => Sys2Proof.Machine.execSaveRange x y s
  | .loadRange x y => Sys2Proof.Machine.execLoadRange x y s
  | .ldILong => Sys2Proof.Machine.execLdILong s
  | .plane n => Sys2Proof.Machine.execPlane n s
  | .audio => Sys2Proof.Machine.execAudio s
  | .ldHf x => Sys2Proof.Machine.execLdHf x s
  | .pitch x => Sys2Proof.Machine.execPitch x s
  | .ldRVx x => Sys2Proof.Machine.execLdRVx x s
  | .ldVxR x => Sys2Proof.Machine.execLdVxR x s

end Sys2Proof.Machine
end

