-- ==== Sys2Proof/Machine/Engine.lean ====
section
/-! DEFINITION. The two engines around `exec`: Fetch and the micro-cycle `tick` of the 6502 family
(40_m65_engine.md R160 to R163), the run of one whole 6502 instruction (70_reset_and_hazards.md R480), and the
macro-step, the breakpoint and the step loop of the CHIP-8 family (45_c8_engine.md R320 to R326). -/

namespace Sys2Proof.Machine

/-! ## 6502 family -/

/-- The Fetch micro-cycle (R161); an illegal opcode is one record and leaves `T` at 0 (R162). -/
def State.fetch65 (s : State) : State :=
  let latched := s.readRow s.m65.pc fun b c => { c with ir := b, pc := c.pc + 1 }
  match decode65 (s.readVal s.m65.pc.toNat) with
  | .ok _ => latched.upd65 fun c => { c with t := 1 }
  | .error _ => latched.raise .illegalOpcode none

/-- Micro-cycle `T` of the instruction in `IR`, `T` not 0 (R160). -/
def State.midCycle65 (s : State) : Option State :=
  match decode65 s.m65.ir with
  | .ok i =>
    match i.m65 with
    | some (mn, mode) => microCycle mn mode s
    | none => none
  | .error _ => none

/-- `tick(steps)` on the 6502 family (R160): exactly one micro-cycle. -/
def tick65 (s : State) : Host.Outcome State Fault Refusal :=
  if s.m65.t = 0 then .next s.fetch65
  else
    match s.midCycle65 with
    | some s' => .next s'
    | none => .fault .strayMicroCycle

/-- `tick` until `READY` = 1 (R480), one `tick` at least: one instruction, from its Fetch or from where it is. -/
def runToReady65 (s : State) : Host.Outcome State Fault Refusal :=
  if s.m65.t = 0 then
    match decode65 (s.readVal s.m65.pc.toNat) with
    | .ok i => exec i s.fetch65
    | .error _ => .next s.fetch65
  else
    match decode65 s.m65.ir with
    | .ok i => exec i s
    | .error _ => .fault .strayMicroCycle

/-- The output `READY` (R30). -/
def State.ready (s : State) : Bool := decide (s.m65.t = 0)

/-! ## CHIP-8 family -/

/-- The fetch of a macro-step (R322): two bus reads, then `OP`, `PC` and, on XOCHIP, `CYCLES`. -/
def State.fetchC8 (s : State) : State :=
  let read := (s.afterRead2 s.c8.pc.toNat).updC8 fun c =>
    { c with op := s.readVal2 s.c8.pc.toNat, pc := c.pc + 2 }
  if s.cfg.arch = .xochip then read.updXo fun x => { x with cycles := x.cycles + 1 } else read

/-- `MacroStep` (R322): an unknown opcode is one record and nothing else (R324). -/
def macroStep (s : State) : Host.Outcome State Fault Refusal :=
  match decodeC8 s.cfg.arch (s.readVal2 s.c8.pc.toNat) with
  | .ok i => exec i s.fetchC8
  | .error _ => .next (s.fetchC8.raise .unknownOpcode none)

/-- `WAIT_REQ` after a macro-step (R326): on CHIP8 with `DISPLAY_WAIT`, the opcode just executed is a `DRW`. -/
def State.waitRequested (s : State) : Bool :=
  decide (s.cfg.arch = .chip8) && s.cfg.displayWait && decide (opTop s.c8.op = 0xD)

/-- The breakpoint stands at the next instruction (R323). -/
def State.atBreakpoint (s : State) : Bool :=
  decide (s.cfg.arch = .xochip) && s.xo.bpEn && decide (s.c8.pc = s.xo.bpAddr)

/-- `HALTED <- 1` (R320). -/
def State.setHalted (s : State) : State := s.updXo fun x => { x with halted := true }

/-- The breakpoint halt (R320, R323): `HALTED` is set first, then the one report is taken, so its register dump (R77)
shows `HALTED` = 1; no fault record. -/
def State.halt (s : State) : State :=
  s.setHalted.updXo fun x => { x with debugLog := x.debugLog ++ [(x.cycles, s.setHalted.dumpState)] }

/-- `tick(steps)` on the CHIP-8 family (R320, R321, R323, R326). -/
def tickC8 : Nat → State → Host.Outcome State Fault Refusal
  | 0, s => .next s
  | steps + 1, s =>
    if s.cfg.arch = .xochip ∧ s.xo.halted = true then .next s
    else if s.atBreakpoint then .next s.halt
    else
      match macroStep s with
      | .next s' => if s'.waitRequested then .next s' else tickC8 steps s'
      | .fault r => .fault r
      | .refused r => .refused r

end Sys2Proof.Machine
end

