-- ==== Sys2Proof/Machine/Interface.lean ====
section
/-! DEFINITION. The host interface (10_state.md R70): the operations that change state (`PowerOn`, `Reset`, `tick`,
`loggedStep`, `decayTimers`, `loadProgram`, `setKeyState`, `setBreakpoint`, `clearBreakpoint`), the reads
(`getFramebuffer`, `getSoundActive`, `getPitch`, the waveform), and the placing of one table word where the
next step fetches. -/

namespace Sys2Proof.Machine

/-! ## Operations that change state -/

/-- `Reset()` (R471). The vector is read from `MEM` directly: no bus operation, no record. -/
def State.hostReset (s : State) : State :=
  if s.cfg.arch.is65 then
    { s with m65 := Cpu65.afterReset (mkWord (s.peek 0xFFFD) (s.peek 0xFFFC)) }
  else
    { s with
      c8 := CpuC8.afterReset
      xo := { s.xo with plane := 1, hires := false, pitch := 64, pattern := Vector.replicate 16 0,
                        halted := false, cycles := 0 } }

/-- `PowerOn()` (R470). The host's remaining operations and the position in RAND are not the instance's state and
stay (log 18). -/
def State.hostPowerOn (s : State) : State :=
  { State.powerOn s.cfg with hostQueue := s.hostQueue, randDraws := s.randDraws }

/-- `tick(steps)` (R160, R320). -/
def State.tick (steps : Nat) (s : State) : Host.Outcome State Fault Refusal :=
  if s.cfg.arch.is65 then tick65 s else tickC8 steps s

/-- A timer one lower, never below 0 (R330). -/
def decay (b : Byte) : Byte := if b = 0 then 0 else b - 1

/-- `decayTimers()` (R330). -/
def State.decayTimers (s : State) : State :=
  s.updC8 fun c => { c with dt := decay c.dt, st := decay c.st }

/-- Bus writes to ascending addresses (R95). -/
def State.writeBytes (s : State) (a : Nat) : List Byte → State
  | [] => s
  | b :: rest => State.writeBytes (s.memWrite a b) (a + 1) rest

/-- `loadProgram(bytes)` (R95); on the CHIP-8 family it also clears `FB`. -/
def State.loadProgram (s : State) (bytes : List Byte) : State :=
  let loaded := s.writeBytes s.cfg.programOrigin bytes
  if s.cfg.arch.is65 then loaded else loaded.setFb FrameBuf.blank

/-- A key goes from pressed to released (R76) and the instance latches that edge (log 11). -/
def State.latchesEdge (s : State) (k : BitVec 4) (pressed : Bool) : Bool :=
  s.keyDown k && !pressed &&
    match s.cfg.keyEdge with
    | .everyRelease => true
    | .firstInWait => s.c8.kwWait && !s.c8.kwValid

/-- `setKeyState(index, pressed)` (R76): the key, and `KW_VALID` and `KW_INDEX` (R46) at a latched release edge. -/
def State.setKeyState (s : State) (k : BitVec 4) (pressed : Bool) : State :=
  s.updC8 fun c =>
    { c with
      kwValid := c.kwValid || s.latchesEdge k pressed
      kwIndex := if s.latchesEdge k pressed then k else c.kwIndex
      key := c.key.set k.toNat pressed k.isLt }

/-- `setBreakpoint(address)` (R78); no effect but on XOCHIP. -/
def State.setBreakpoint (s : State) (address : Nat) : State :=
  if s.cfg.arch = .xochip then s.updXo fun x => { x with bpEn := true, bpAddr := BitVec.ofNat 16 address } else s

/-- `clearBreakpoint()` (R78); no effect but on XOCHIP. -/
def State.clearBreakpoint (s : State) : State :=
  if s.cfg.arch = .xochip then s.updXo fun x => { x with bpEn := false, halted := false } else s

/-- One host operation. The timers and the keys exist on the CHIP-8 family only (R70); an index above 15 is
outside the domain of `setKeyState` (R76); `loggedStep` has the effect of `tick` (R79). -/
def runHostOp (o : HostOp) (s : State) : Host.Outcome State Fault Refusal :=
  match o with
  | .powerOn => .next s.hostPowerOn
  | .reset => .next s.hostReset
  | .tick steps => s.tick steps
  | .loggedStep steps => s.tick steps
  | .decayTimers => if s.cfg.arch.is65 then .refused .operationNotProvided else .next s.decayTimers
  | .loadProgram bytes => .next (s.loadProgram bytes)
  | .setKeyState index pressed =>
    if s.cfg.arch.is65 then .refused .operationNotProvided
    else if index < 16 then .next (s.setKeyState (BitVec.ofNat 4 index) pressed)
    else .refused .keyIndexOutOfRange
  | .setBreakpoint address => .next (s.setBreakpoint address)
  | .clearBreakpoint => .next s.clearBreakpoint

/-! ## Reads

Each read is provided on the architectures of its row in R70 and changes no state; elsewhere it answers none (log 14).
`dumpState`, which every architecture provides, stands in Machine/Ops.lean. -/

/-- The size of the framebuffer of the instance (R6, R47, R54). -/
def State.fbSize (s : State) : Nat × Nat := if s.cfg.arch = .xochip then (128, 64) else (64, 32)

/-- `getFramebuffer()` of the CHIP-8 family (R70, R73): rows from the top, cells from the left. -/
def State.getFramebuffer (s : State) : Option (List (List (BitVec 4))) :=
  if s.cfg.arch.is65 then none
  else some ((List.range s.fbSize.2).map fun y => (List.range s.fbSize.1).map fun x => s.c8.fb.cell x y)

/-- `getSoundActive()` of the CHIP-8 family (R70, R74). -/
def State.getSoundActive (s : State) : Option Bool :=
  if s.cfg.arch.is65 then none else some (decide (0 < s.c8.st.toNat))

/-- `getPitch()` of XOCHIP (R74), a real number (log 16); not provided on CHIP8. No step reads it. -/
noncomputable def State.getPitch (s : State) : Option ℝ :=
  if s.cfg.arch = .xochip then some (4000 * (2 : ℝ) ^ (((s.xo.pitch.toNat : ℝ) - 64) / 48)) else none

/-- `WAVE[k]` (R58), most significant bit of each pattern byte first. -/
def State.wave (s : State) (k : Fin 128) : Bool :=
  (s.xo.pattern.toList.getD (k.val / 8) 0).getLsbD (7 - k.val % 8)

/-! ## One table word where the next step fetches -/

/-- Put a byte into `MEM` without a bus operation. -/
def State.poke (s : State) (a : Nat) (v : Byte) : State := { s with mem := Mem.write s.cfg s.mem a v }

/-- Put bytes at ascending addresses mod 2^16. -/
def State.pokeList (s : State) (a : Word) : List Byte → State
  | [] => s
  | b :: rest => State.pokeList (s.poke a.toNat b) (a + 1) rest

/-- The instance can run a table word as it is: its family reads the word's layout, and it does not reject a
word that another architecture of the family has. -/
def runsTableWord (a : Arch) (nbits w : Nat) : Bool :=
  if tableWordIs65 nbits w then a.is65
  else !a.is65 && (decide (a = .xochip) || (decodeC8Row .chip8 (BitVec.ofNat 16 w)).isSome ||
    (decodeC8Row .xochip (BitVec.ofNat 16 w)).isNone)

/-- A table word placed so that the very next step runs it (log 3): on an instance that cannot run it, in a freshly
powered-on one that can. No host operation is pending, no instruction is in flight, and neither the halt nor
the breakpoint of XOCHIP holds the step back. -/
def State.placeTableWord (s : State) (nbits w : Nat) : State :=
  let bytes := tableWordBytes nbits w
  let base := if runsTableWord s.cfg.arch nbits w then s else State.powerOn (Config.standard (tableWordArch nbits w))
  if tableWordIs65 nbits w then
    let ready := { base with hostQueue := [], m65 := { base.m65 with t := 0 } }
    ready.pokeList ready.m65.pc (bytes.take 3)
  else
    let pc := if base.c8.pc.toNat + 3 < base.cfg.memSize then base.c8.pc else 0x200
    let ready :=
      { base with
        hostQueue := []
        c8 := { base.c8 with pc := pc }
        xo := { base.xo with halted := false, bpEn := false } }
    ready.pokeList pc bytes

end Sys2Proof.Machine
end

