-- ==== Sys2Proof/Machine/Step.lean ====
section
/-! DEFINITION. One step of the machine: the next pending host operation (10_state.md R70, 00_scope.md R8), or, with
none pending, one instruction (log 2). -/

namespace Sys2Proof.Machine

/-- With a host operation pending, that operation; else one instruction of the engine: `tick` until `READY` on
the 6502 family (R480), `tick(1)` on the CHIP-8 family (R320). -/
def step (s : State) : Host.Outcome State Fault Refusal :=
  match s.hostQueue with
  | o :: rest => runHostOp o { s with hostQueue := rest }
  | [] => if s.cfg.arch.is65 then runToReady65 s else tickC8 1 s

/-- `s` with a word of the opcode table stored where `step` fetches its next instruction (log 3). -/
def State.withFetchWord (s : State) (nbits w : Nat) : State := s.placeTableWord nbits w

end Sys2Proof.Machine
end

