-- ==== Sys2Proof/Safety.lean ====
section
/-! DEFINITION. What the claims about the machine speak of: the legal states (`Inv`), the states between Fetch and
the first row of a 6502 instruction, what an instruction may change, and the fault-log, bus and sprite terms of
the memory and display claims. -/

namespace Sys2Proof.Machine

/-! ## Legal states -/

/-- The most micro-cycles after Fetch an instruction can take (40_m65_engine.md R168). -/
def maxCycles (mn : Mn) (mode : Mode) : Nat :=
  match mn.cls mode, mode with
  | .imp, _ => 1
  | .acc, _ => 1
  | .br, _ => 3
  | .special, _ =>
    match mn with
    | .jmp => if mode = .ind then 4 else 2
    | .jsr => 5
    | .rts => 5
    | .rti => 5
    | .brk => 6
    | .pha => 2
    | .php => 2
    | _ => 3
  | .r, .imm => 1
  | .r, .zp => 2
  | .r, .abx => 4
  | .r, .aby => 4
  | .r, .izx => 5
  | .r, .izy => 5
  | .r, _ => 3
  | .w, .zp => 2
  | .w, .abx => 4
  | .w, .aby => 4
  | .w, .izx => 5
  | .w, .izy => 5
  | .w, _ => 3
  | .m, .zp => 4
  | .m, .abx => 6
  | .m, _ => 5

/-- `T` is 0, or a legal opcode is latched and `T` does not exceed its most micro-cycles (R191). -/
def State.inFlightLegal (s : State) : Bool :=
  decide (s.m65.t = 0) ||
    match decode65 s.m65.ir with
    | .ok i =>
      match i.m65 with
      | some (mn, mode) => decide (s.m65.t.toNat ≤ maxCycles mn mode)
      | none => false
    | .error _ => false

/-- While `HIRES` = 0 on XOCHIP the four cells of every 2 x 2 block are equal (10_state.md R55). -/
def State.blocksEqual (s : State) : Prop :=
  s.cfg.arch = .xochip → s.xo.hires = false →
    ∀ x y, x < 128 → y < 64 → s.c8.fb.cell x y = s.c8.fb.cell (x / 2 * 2) (y / 2 * 2)

/-- On CHIP8 only the cells of the 64 x 32 grid exist, one bit each (R47). -/
def State.chip8Grid (s : State) : Prop :=
  s.cfg.arch = .chip8 →
    ∀ x y, (64 ≤ x ∨ 32 ≤ y → s.c8.fb.cell x y = 0) ∧ (s.c8.fb.cell x y = 0 ∨ s.c8.fb.cell x y = 1)

/-- The state an architecture does not have stays at its reset values (R20). -/
def State.absentAtReset (s : State) : Prop :=
  match s.cfg.arch with
  | .m6502 | .n6502 => s.c8 = CpuC8.afterReset ∧ s.xo = XoState.afterPowerOn
  | .chip8 => s.m65 = Cpu65.afterReset 0 ∧ s.xo = XoState.afterPowerOn
  | .xochip => s.m65 = Cpu65.afterReset 0

/-- The legal states of an instance. -/
structure Inv (s : State) : Prop where
  /-- Memory is in its canonical form. -/
  memory : Mem.wf s.cfg s.mem = true
  /-- `SP` never exceeds the stack depth (R43). -/
  stack : s.c8.sp.toNat ≤ s.cfg.arch.stackDepth
  /-- The micro-cycle counter names a row (R191). -/
  inFlight : s.inFlightLegal = true
  /-- Low-resolution pixels are whole blocks (R55). -/
  blocks : s.blocksEqual
  /-- The CHIP8 grid is 64 x 32 x 1 (R47). -/
  grid : s.chip8Grid
  /-- State the architecture does not have is untouched (R20). -/
  absent : s.absentAtReset
  /-- Where edges count within a key wait only, `KW_VALID` says that one was seen since the wait began (R46, D37). -/
  keyWait : s.cfg.keyEdge = .firstInWait → s.c8.kwValid = true → s.c8.kwWait = true

/-- A host operation the instance's architecture provides, with arguments in its domain (R70, R76). -/
def HostOp.allowed (a : Arch) : HostOp → Bool
  | .decayTimers => !a.is65
  | .setKeyState index _ => !a.is65 && decide (index < 16)
  | _ => true

/-- A run step is safe when the machine goes on. -/
def Safe (s : State) : Prop := ∃ t, step s = .next t

/-! ## 6502 claims -/

/-- A 6502 instance between the Fetch of an opcode and the first row of its sequence (R161). -/
def State.fetched65 (s : State) : Prop := s.cfg.arch.is65 = true ∧ s.m65.t = 1

/-- The registers without the scratch fields `ADL ADH PTR DATA PGX`, whose values no instruction observes
between instructions (R31). -/
def Cpu65.visible (c : Cpu65) : Cpu65 := { c with adl := 0, adh := 0, ptr := 0, data := 0, pgx := false }

/-- `PC` after the operand bytes of a mode (R120, R121). -/
def State.afterOperand (s : State) (mode : Mode) : Word := s.m65.pc + BitVec.ofNat 16 (mode.length - 1)

/-- Nothing but the 6502 registers and the record of bus operations differs. -/
def OnlyCpu65 (s t : State) : Prop := t = { s with m65 := t.m65, busTrace := t.busTrace }

/-- Nothing but the 6502 registers, memory and the record of bus operations differs. -/
def OnlyCpu65AndMem (s t : State) : Prop := t = { s with m65 := t.m65, mem := t.mem, busTrace := t.busTrace }

/-- Every byte of memory but one reads as before, and that one reads `v`. -/
def StoresByte (s t : State) (a : Nat) (v : Byte) : Prop :=
  t.peek a = v ∧ ∀ b, b ≠ a → t.peek b = s.peek b

/-- Every byte of memory reads as before. -/
def MemSame (s t : State) : Prop := ∀ b, t.peek b = s.peek b

/-- `i` completes from `s` in `n` micro-cycles with the registers `c` (scratch fields aside), and no byte of memory and
no other state changes: `exec` answers a next state that is so. -/
def RunsTo65 (i : Instr) (s : State) (n : Nat) (c : Cpu65) : Prop :=
  ∃ t, exec i s = .next t ∧ t.m65.visible = c.visible ∧ OnlyCpu65 s t ∧
    t.busTrace.length = s.busTrace.length + n

/-- `i` completes from `s` in `n` micro-cycles with the registers `c` (scratch fields aside), the byte at `a` is `v`,
and no other byte of memory and no other state changes. -/
def StoresTo65 (i : Instr) (s : State) (n : Nat) (c : Cpu65) (a : Word) (v : Byte) : Prop :=
  ∃ t, exec i s = .next t ∧ t.m65.visible = c.visible ∧ OnlyCpu65AndMem s t ∧ StoresByte s t a.toNat v ∧
    t.busTrace.length = s.busTrace.length + n

/-- `Z` and `N` taken from an 8-bit value (00_scope.md R10), the other flags as they are. -/
def Flags.withZN (p : Flags) (v : Byte) : Flags := { p with z := decide (v = 0), n := v.getLsbD 7 }

/-- Run the micro-cycle `tick` of the 6502 family a number of times (R160). -/
def ticks65 : Nat → State → Host.Outcome State Fault Refusal
  | 0, s => .next s
  | k + 1, s =>
    match tick65 s with
    | .next t => ticks65 k t
    | .fault r => .fault r
    | .refused r => .refused r

/-! ## CHIP-8 claims -/

/-- A CHIP-8 family instance. -/
def State.isC8 (s : State) : Prop := s.cfg.arch.is65 = false

/-- The fault log of `t` is that of `s` with records of the given kinds and addresses appended, in that order. -/
def AppendsFaults (s t : State) (l : List (FaultKind × Option Nat)) : Prop :=
  ∃ new, t.faultLog = s.faultLog ++ new ∧ new.map (fun r => (r.kind, r.info)) = l

/-- The out-of-range addresses among `n` ascending ones from `a`, as fault records of kind `k`. -/
def rangeFaults (c : Config) (k : FaultKind) (a n : Nat) : List (FaultKind × Option Nat) :=
  ((List.range n).filter fun i => decide (c.memSize ≤ a + i)).map fun i => (k, some (a + i))

/-- The record of the reads of `n` ascending addresses from `a`, as the bus answers them in state `s`. -/
def busReads (s : State) (a n : Nat) : List BusOp :=
  (List.range n).map fun i => .read (a + i) (s.readVal (a + i)) (!decide (a + i < s.cfg.memSize))

/-- The reports of the two reads of a CHIP-8 fetch, for those of the addresses `PC` and `PC` + 1 that are out of range:
each carries the `OP` and the `PC` of before the fetch (R322, R441, R443). -/
def State.fetchReports (s : State) : List FaultRecord :=
  ((List.range 2).filter fun k => decide (s.cfg.memSize ≤ s.c8.pc.toNat + k)).map fun k =>
    { kind := .outOfBoundsRead, arch := s.cfg.arch, opcode := s.c8.op, pc := s.c8.pc, regs := s.dumpState,
      info := some (s.c8.pc.toNat + k) }

/-- A CHIP-8 family instance after the fetch of a macro-step (R322), wherever `PC` stands: the two reads and their
reports, the opcode in `OP` (a byte out of range is 0), `PC` 2 further mod 2^16, and on XOCHIP one more in `CYCLES`. -/
def State.fetchedC8 (s : State) : State :=
  { s with
    c8 := { s.c8 with
      op := mkWord (s.readVal s.c8.pc.toNat) (s.readVal (s.c8.pc.toNat + 1))
      pc := s.c8.pc + 2 }
    xo := { s.xo with cycles := if s.cfg.arch = .xochip then s.xo.cycles + 1 else s.xo.cycles }
    faultLog := s.faultLog ++ s.fetchReports
    busTrace := s.busTrace ++ busReads s s.c8.pc.toNat 2 }

/-- The part of the state an instruction of the CHIP-8 family never touches. -/
def OnlyC8 (s t : State) : Prop :=
  t = { s with c8 := t.c8, xo := t.xo, mem := t.mem, faultLog := t.faultLog, busTrace := t.busTrace,
               randDraws := t.randDraws }

/-- How many selected planes lie below plane `p`: the place of its sprite data (47_c8_display.md R401). -/
def State.planesBelow (s : State) (p : Nat) : Nat := (s.drawPlanes.filter fun q => decide (q < p)).length

/-- The sprite of `DRW` has pixel (dx, dy) set in plane `p` (R401). -/
def State.spritePixel (s : State) (n : BitVec 4) (p dx dy : Nat) : Bool :=
  let rows := (s.spriteShape n).1
  let bpr := (s.spriteShape n).2
  decide (dx < 8 * bpr) && decide (dy < rows) &&
    (s.readVal (s.c8.i.toNat + s.planesBelow p * (rows * bpr) + dy * bpr + dx / 8)).getLsbD (7 - dx % 8)

/-- `DRW x y n` toggles logical pixel (px, py) in plane `p`: the plane is selected and the sprite, placed at
(V[x], V[y]) and wrapping at both edges, has the pixel set. -/
def State.drawToggles (s : State) (x y n : BitVec 4) (p px py : Nat) : Bool :=
  decide (p ∈ s.drawPlanes) &&
    s.spritePixel n p ((px + s.logicalWidth - (s.reg x).toNat % s.logicalWidth) % s.logicalWidth)
      ((py + s.logicalHeight - (s.reg y).toNat % s.logicalHeight) % s.logicalHeight)

/-- The planes in which `DRW x y n` toggles logical pixel (px, py), as a 4-bit mask. -/
def State.drawMask (s : State) (x y n : BitVec 4) (px py : Nat) : BitVec 4 :=
  BitVec.ofBool (s.drawToggles x y n 3 px py) ++ BitVec.ofBool (s.drawToggles x y n 2 px py) ++
    BitVec.ofBool (s.drawToggles x y n 1 px py) ++ BitVec.ofBool (s.drawToggles x y n 0 px py)

end Sys2Proof.Machine
end

