-- ==== Sys2Proof/Certificates/Slice0/Obligations.lean ====
section
/-! DEFINITION. The statements about the model, from the numbered rules of spec/. `RunsTo65` and `StoresTo65` (Safety.lean)
say that `exec` answers a next state and what that state is; `s.fetched65` is a 6502 instance whose opcode has
been fetched and whose first row is next. `busTrace` is the model's record of the bus operations made (log 4): a statement
that speaks of its length or its entries says how many bus operations the rules make, and which. Log numbers are those
of notes/assumptions. -/

open Sys2Proof Sys2Proof.Machine

/-- `LDA`, `LDX`, `LDY` in every mode (R220, R221, R222): the register takes the operand byte, `Z` and `N` are its, and
nothing else changes. -/
def Obligations.LoadsReplaceRegister : Prop :=
  ∀ (i : Instr) (mode : Mode) (op : Byte) (s : State) (a : Word), s.fetched65 → s.effectiveAddr mode = some a →
    ((i, mode, op) ∈
      ([(.ldaIzx, .izx, 0xA1), (.ldaZp, .zp, 0xA5), (.ldaImm, .imm, 0xA9), (.ldaAbs, .abs, 0xAD),
        (.ldaIzy, .izy, 0xB1), (.ldaZpx, .zpx, 0xB5), (.ldaAby, .aby, 0xB9),
        (.ldaAbx, .abx, 0xBD)] : List (Instr × Mode × Byte)) →
      encode65 i = some op ∧ RunsTo65 i s (cycleCount .lda mode s)
        { s.m65 with a := s.peekW a, p := s.m65.p.withZN (s.peekW a), pc := s.afterOperand mode, t := 0 }) ∧
    ((i, mode, op) ∈
      ([(.ldxImm, .imm, 0xA2), (.ldxZp, .zp, 0xA6), (.ldxAbs, .abs, 0xAE), (.ldxZpy, .zpy, 0xB6),
        (.ldxAby, .aby, 0xBE)] : List (Instr × Mode × Byte)) →
      encode65 i = some op ∧ RunsTo65 i s (cycleCount .ldx mode s)
        { s.m65 with x := s.peekW a, p := s.m65.p.withZN (s.peekW a), pc := s.afterOperand mode, t := 0 }) ∧
    ((i, mode, op) ∈
      ([(.ldyImm, .imm, 0xA0), (.ldyZp, .zp, 0xA4), (.ldyAbs, .abs, 0xAC), (.ldyZpx, .zpx, 0xB4),
        (.ldyAbx, .abx, 0xBC)] : List (Instr × Mode × Byte)) →
      encode65 i = some op ∧ RunsTo65 i s (cycleCount .ldy mode s)
        { s.m65 with y := s.peekW a, p := s.m65.p.withZN (s.peekW a), pc := s.afterOperand mode, t := 0 })

/-- `ADC` in every mode (R241), whatever `P.D` is (R242): the 9-bit sum gives `A`, `C`, and with the old `A` the signed
overflow. -/
def Obligations.AddWithCarry : Prop :=
  ∀ (i : Instr) (mode : Mode) (op : Byte) (s : State) (a : Word), s.fetched65 → s.effectiveAddr mode = some a →
    (i, mode, op) ∈
      ([(.adcIzx, .izx, 0x61), (.adcZp, .zp, 0x65), (.adcImm, .imm, 0x69), (.adcAbs, .abs, 0x6D),
        (.adcIzy, .izy, 0x71), (.adcZpx, .zpx, 0x75), (.adcAby, .aby, 0x79),
        (.adcAbx, .abx, 0x7D)] : List (Instr × Mode × Byte)) →
    let m := s.peekW a
    let sum := s.m65.a.toNat + m.toNat + s.m65.p.c.toNat
    let r := BitVec.ofNat 8 sum
    encode65 i = some op ∧ RunsTo65 i s (cycleCount .adc mode s)
      { s.m65 with
        a := r
        p := { s.m65.p with c := decide (256 ≤ sum), v := ((s.m65.a ^^^ r) &&& (m ^^^ r)).getLsbD 7,
                            z := decide (r = 0), n := r.getLsbD 7 }
        pc := s.afterOperand mode
        t := 0 }

/-- `SBC` in every mode (R243), said over the integers: the difference, no borrow, and the signed range. -/
def Obligations.SubtractWithBorrow : Prop :=
  ∀ (i : Instr) (mode : Mode) (op : Byte) (s : State) (a : Word), s.fetched65 → s.effectiveAddr mode = some a →
    (i, mode, op) ∈
      ([(.sbcIzx, .izx, 0xE1), (.sbcZp, .zp, 0xE5), (.sbcImm, .imm, 0xE9), (.sbcAbs, .abs, 0xED),
        (.sbcIzy, .izy, 0xF1), (.sbcZpx, .zpx, 0xF5), (.sbcAby, .aby, 0xF9),
        (.sbcAbx, .abx, 0xFD)] : List (Instr × Mode × Byte)) →
    let m := s.peekW a
    let borrow : Int := 1 - s.m65.p.c.toNat
    let diff : Int := s.m65.a.toNat - m.toNat - borrow
    let signed : Int := s.m65.a.toInt - m.toInt - borrow
    let r := BitVec.ofInt 8 diff
    encode65 i = some op ∧ RunsTo65 i s (cycleCount .sbc mode s)
      { s.m65 with
        a := r
        p := { s.m65.p with c := decide (0 ≤ diff), v := decide (signed < -128 ∨ 127 < signed),
                            z := decide (r = 0), n := r.getLsbD 7 }
        pc := s.afterOperand mode
        t := 0 }

/-- `AND`, `ORA`, `EOR` in every mode (R244, R245, R246). -/
def Obligations.LogicCombinesAccumulator : Prop :=
  ∀ (i : Instr) (mode : Mode) (op : Byte) (s : State) (a : Word), s.fetched65 → s.effectiveAddr mode = some a →
    ((i, mode, op) ∈
      ([(.andIzx, .izx, 0x21), (.andZp, .zp, 0x25), (.andImm, .imm, 0x29), (.andAbs, .abs, 0x2D),
        (.andIzy, .izy, 0x31), (.andZpx, .zpx, 0x35), (.andAby, .aby, 0x39),
        (.andAbx, .abx, 0x3D)] : List (Instr × Mode × Byte)) →
      encode65 i = some op ∧ RunsTo65 i s (cycleCount .and mode s)
        { s.m65 with a := s.m65.a &&& s.peekW a, p := s.m65.p.withZN (s.m65.a &&& s.peekW a),
                     pc := s.afterOperand mode, t := 0 }) ∧
    ((i, mode, op) ∈
      ([(.oraIzx, .izx, 0x01), (.oraZp, .zp, 0x05), (.oraImm, .imm, 0x09), (.oraAbs, .abs, 0x0D),
        (.oraIzy, .izy, 0x11), (.oraZpx, .zpx, 0x15), (.oraAby, .aby, 0x19),
        (.oraAbx, .abx, 0x1D)] : List (Instr × Mode × Byte)) →
      encode65 i = some op ∧ RunsTo65 i s (cycleCount .ora mode s)
        { s.m65 with a := s.m65.a ||| s.peekW a, p := s.m65.p.withZN (s.m65.a ||| s.peekW a),
                     pc := s.afterOperand mode, t := 0 }) ∧
    ((i, mode, op) ∈
      ([(.eorIzx, .izx, 0x41), (.eorZp, .zp, 0x45), (.eorImm, .imm, 0x49), (.eorAbs, .abs, 0x4D),
        (.eorIzy, .izy, 0x51), (.eorZpx, .zpx, 0x55), (.eorAby, .aby, 0x59),
        (.eorAbx, .abx, 0x5D)] : List (Instr × Mode × Byte)) →
      encode65 i = some op ∧ RunsTo65 i s (cycleCount .eor mode s)
        { s.m65 with a := s.m65.a ^^^ s.peekW a, p := s.m65.p.withZN (s.m65.a ^^^ s.peekW a),
                     pc := s.afterOperand mode, t := 0 })

/-- `CMP`, `CPX`, `CPY` in every mode (R247, R248, R249): three flags and nothing else. -/
def Obligations.ComparesSetCarryZeroNegative : Prop :=
  ∀ (i : Instr) (mode : Mode) (op : Byte) (s : State) (a : Word), s.fetched65 → s.effectiveAddr mode = some a →
    ((i, mode, op) ∈
      ([(.cmpIzx, .izx, 0xC1), (.cmpZp, .zp, 0xC5), (.cmpImm, .imm, 0xC9), (.cmpAbs, .abs, 0xCD),
        (.cmpIzy, .izy, 0xD1), (.cmpZpx, .zpx, 0xD5), (.cmpAby, .aby, 0xD9),
        (.cmpAbx, .abx, 0xDD)] : List (Instr × Mode × Byte)) →
      encode65 i = some op ∧ RunsTo65 i s (cycleCount .cmp mode s)
        { s.m65 with p := { s.m65.p.withZN (s.m65.a - s.peekW a) with
                              c := decide ((s.peekW a).toNat ≤ s.m65.a.toNat) },
                     pc := s.afterOperand mode, t := 0 }) ∧
    ((i, mode, op) ∈
      ([(.cpxImm, .imm, 0xE0), (.cpxZp, .zp, 0xE4), (.cpxAbs, .abs, 0xEC)] : List (Instr × Mode × Byte)) →
      encode65 i = some op ∧ RunsTo65 i s (cycleCount .cpx mode s)
        { s.m65 with p := { s.m65.p.withZN (s.m65.x - s.peekW a) with
                              c := decide ((s.peekW a).toNat ≤ s.m65.x.toNat) },
                     pc := s.afterOperand mode, t := 0 }) ∧
    ((i, mode, op) ∈
      ([(.cpyImm, .imm, 0xC0), (.cpyZp, .zp, 0xC4), (.cpyAbs, .abs, 0xCC)] : List (Instr × Mode × Byte)) →
      encode65 i = some op ∧ RunsTo65 i s (cycleCount .cpy mode s)
        { s.m65 with p := { s.m65.p.withZN (s.m65.y - s.peekW a) with
                              c := decide ((s.peekW a).toNat ≤ s.m65.y.toNat) },
                     pc := s.afterOperand mode, t := 0 })

/-- `BIT` (R250): `Z` from the and, `N` and `V` from the operand itself. -/
def Obligations.BitTestCopiesOperandBits : Prop :=
  ∀ (i : Instr) (mode : Mode) (op : Byte) (s : State) (a : Word), s.fetched65 → s.effectiveAddr mode = some a →
    (i, mode, op) ∈
      ([(.bitZp, .zp, 0x24), (.bitAbs, .abs, 0x2C)] : List (Instr × Mode × Byte)) →
    encode65 i = some op ∧ RunsTo65 i s (cycleCount .bit mode s)
      { s.m65 with p := { s.m65.p with z := decide (s.m65.a &&& s.peekW a = 0), n := (s.peekW a).getLsbD 7,
                                       v := (s.peekW a).getLsbD 6 },
                   pc := s.afterOperand mode, t := 0 }

/-- `STA`, `STX`, `STY` in every mode (R223, R224, R225): one byte of memory and no flag. -/
def Obligations.StoresWriteOneByte : Prop :=
  ∀ (i : Instr) (mode : Mode) (op : Byte) (s : State) (a : Word), s.fetched65 → s.effectiveAddr mode = some a →
    ((i, mode, op) ∈
      ([(.staIzx, .izx, 0x81), (.staZp, .zp, 0x85), (.staAbs, .abs, 0x8D), (.staIzy, .izy, 0x91),
        (.staZpx, .zpx, 0x95), (.staAby, .aby, 0x99), (.staAbx, .abx, 0x9D)] : List (Instr × Mode × Byte)) →
      encode65 i = some op ∧ StoresTo65 i s (cycleCount .sta mode s)
        { s.m65 with pc := s.afterOperand mode, t := 0 } a s.m65.a) ∧
    ((i, mode, op) ∈
      ([(.stxZp, .zp, 0x86), (.stxAbs, .abs, 0x8E), (.stxZpy, .zpy, 0x96)] : List (Instr × Mode × Byte)) →
      encode65 i = some op ∧ StoresTo65 i s (cycleCount .stx mode s)
        { s.m65 with pc := s.afterOperand mode, t := 0 } a s.m65.x) ∧
    ((i, mode, op) ∈
      ([(.styZp, .zp, 0x84), (.styAbs, .abs, 0x8C), (.styZpx, .zpx, 0x94)] : List (Instr × Mode × Byte)) →
      encode65 i = some op ∧ StoresTo65 i s (cycleCount .sty mode s)
        { s.m65 with pc := s.afterOperand mode, t := 0 } a s.m65.y)

/-- `INC` and `DEC` (R251, R252): the byte wraps, `Z` and `N` are its, `C` and `V` stay. -/
def Obligations.IncrementsAndDecrementsMemory : Prop :=
  ∀ (i : Instr) (mode : Mode) (op : Byte) (s : State) (a : Word), s.fetched65 → s.effectiveAddr mode = some a →
    ((i, mode, op) ∈
      ([(.incZp, .zp, 0xE6), (.incAbs, .abs, 0xEE), (.incZpx, .zpx, 0xF6), (.incAbx, .abx, 0xFE)] : List (Instr × Mode × Byte)) →
      encode65 i = some op ∧ StoresTo65 i s (cycleCount .inc mode s)
        { s.m65 with p := s.m65.p.withZN (s.peekW a + 1), pc := s.afterOperand mode, t := 0 } a (s.peekW a + 1)) ∧
    ((i, mode, op) ∈
      ([(.decZp, .zp, 0xC6), (.decAbs, .abs, 0xCE), (.decZpx, .zpx, 0xD6), (.decAbx, .abx, 0xDE)] : List (Instr × Mode × Byte)) →
      encode65 i = some op ∧ StoresTo65 i s (cycleCount .dec mode s)
        { s.m65 with p := s.m65.p.withZN (s.peekW a - 1), pc := s.afterOperand mode, t := 0 } a (s.peekW a - 1))

/-- `ASL`, `LSR`, `ROL`, `ROR` (R257 to R260), the accumulator form and every memory form. The results are said in arithmetic:
twice the byte, half the byte, with the old carry at the free end. -/
def Obligations.ShiftsAndRotatesMoveOneBit : Prop :=
      (∀ (i : Instr) (mode : Mode) (op : Byte) (s : State), s.fetched65 →
      (i, mode, op) ∈
      ([(.aslZp, .zp, 0x06), (.aslAcc, .acc, 0x0A), (.aslAbs, .abs, 0x0E), (.aslZpx, .zpx, 0x16),
        (.aslAbx, .abx, 0x1E)] : List (Instr × Mode × Byte)) →
      encode65 i = some op ∧
      (mode = .acc →
        let m := s.m65.a
        let r : Byte := BitVec.ofNat 8 (2 * m.toNat)
        RunsTo65 i s (cycleCount .asl mode s)
          { s.m65 with a := r, p := { s.m65.p with c := m.getLsbD 7, z := decide (r = 0), n := r.getLsbD 7 }, t := 0 }) ∧
      (∀ a, s.effectiveAddr mode = some a →
        let m := s.peekW a
        let r : Byte := BitVec.ofNat 8 (2 * m.toNat)
        StoresTo65 i s (cycleCount .asl mode s)
          { s.m65 with p := { s.m65.p with c := m.getLsbD 7, z := decide (r = 0), n := r.getLsbD 7 },
                       pc := s.afterOperand mode, t := 0 } a r)) ∧
    (∀ (i : Instr) (mode : Mode) (op : Byte) (s : State), s.fetched65 →
      (i, mode, op) ∈
      ([(.lsrZp, .zp, 0x46), (.lsrAcc, .acc, 0x4A), (.lsrAbs, .abs, 0x4E), (.lsrZpx, .zpx, 0x56),
        (.lsrAbx, .abx, 0x5E)] : List (Instr × Mode × Byte)) →
      encode65 i = some op ∧
      (mode = .acc →
        let m := s.m65.a
        let r : Byte := BitVec.ofNat 8 (m.toNat / 2)
        RunsTo65 i s (cycleCount .lsr mode s)
          { s.m65 with a := r, p := { s.m65.p with c := m.getLsbD 0, z := decide (r = 0), n := r.getLsbD 7 }, t := 0 }) ∧
      (∀ a, s.effectiveAddr mode = some a →
        let m := s.peekW a
        let r : Byte := BitVec.ofNat 8 (m.toNat / 2)
        StoresTo65 i s (cycleCount .lsr mode s)
          { s.m65 with p := { s.m65.p with c := m.getLsbD 0, z := decide (r = 0), n := r.getLsbD 7 },
                       pc := s.afterOperand mode, t := 0 } a r)) ∧
    (∀ (i : Instr) (mode : Mode) (op : Byte) (s : State), s.fetched65 →
      (i, mode, op) ∈
      ([(.rolZp, .zp, 0x26), (.rolAcc, .acc, 0x2A), (.rolAbs, .abs, 0x2E), (.rolZpx, .zpx, 0x36),
        (.rolAbx, .abx, 0x3E)] : List (Instr × Mode × Byte)) →
      encode65 i = some op ∧
      (mode = .acc →
        let m := s.m65.a
        let r : Byte := BitVec.ofNat 8 (2 * m.toNat + s.m65.p.c.toNat)
        RunsTo65 i s (cycleCount .rol mode s)
          { s.m65 with a := r, p := { s.m65.p with c := m.getLsbD 7, z := decide (r = 0), n := r.getLsbD 7 }, t := 0 }) ∧
      (∀ a, s.effectiveAddr mode = some a →
        let m := s.peekW a
        let r : Byte := BitVec.ofNat 8 (2 * m.toNat + s.m65.p.c.toNat)
        StoresTo65 i s (cycleCount .rol mode s)
          { s.m65 with p := { s.m65.p with c := m.getLsbD 7, z := decide (r = 0), n := r.getLsbD 7 },
                       pc := s.afterOperand mode, t := 0 } a r)) ∧
    (∀ (i : Instr) (mode : Mode) (op : Byte) (s : State), s.fetched65 →
      (i, mode, op) ∈
      ([(.rorZp, .zp, 0x66), (.rorAcc, .acc, 0x6A), (.rorAbs, .abs, 0x6E), (.rorZpx, .zpx, 0x76),
        (.rorAbx, .abx, 0x7E)] : List (Instr × Mode × Byte)) →
      encode65 i = some op ∧
      (mode = .acc →
        let m := s.m65.a
        let r : Byte := BitVec.ofNat 8 (m.toNat / 2 + 128 * s.m65.p.c.toNat)
        RunsTo65 i s (cycleCount .ror mode s)
          { s.m65 with a := r, p := { s.m65.p with c := m.getLsbD 0, z := decide (r = 0), n := r.getLsbD 7 }, t := 0 }) ∧
      (∀ a, s.effectiveAddr mode = some a →
        let m := s.peekW a
        let r : Byte := BitVec.ofNat 8 (m.toNat / 2 + 128 * s.m65.p.c.toNat)
        StoresTo65 i s (cycleCount .ror mode s)
          { s.m65 with p := { s.m65.p with c := m.getLsbD 0, z := decide (r = 0), n := r.getLsbD 7 },
                       pc := s.afterOperand mode, t := 0 } a r))

/-- The six transfers (R226 to R231): five set `Z` and `N` from the value moved, `TXS` sets no flag. -/
def Obligations.TransfersCopyRegister : Prop :=
  ∀ (i : Instr) (op : Byte) (s : State) (c' : Cpu65), s.fetched65 →
    let c := { s.m65 with t := 0 }
    (i, op, c') ∈
      ([(.tax, 0xAA, { c with x := c.a, p := c.p.withZN c.a }),
        (.tay, 0xA8, { c with y := c.a, p := c.p.withZN c.a }),
        (.txa, 0x8A, { c with a := c.x, p := c.p.withZN c.x }),
        (.tya, 0x98, { c with a := c.y, p := c.p.withZN c.y }),
        (.tsx, 0xBA, { c with x := c.s, p := c.p.withZN c.s }),
        (.txs, 0x9A, { c with s := c.x })] : List (Instr × Byte × Cpu65)) →
    encode65 i = some op ∧ RunsTo65 i s 1 c'

/-- `INX`, `INY`, `DEX`, `DEY` (R253 to R256). -/
def Obligations.IndexRegistersCount : Prop :=
  ∀ (i : Instr) (op : Byte) (s : State) (c' : Cpu65), s.fetched65 →
    let c := { s.m65 with t := 0 }
    (i, op, c') ∈
      ([(.inx, 0xE8, { c with x := c.x + 1, p := c.p.withZN (c.x + 1) }),
        (.iny, 0xC8, { c with y := c.y + 1, p := c.p.withZN (c.y + 1) }),
        (.dex, 0xCA, { c with x := c.x - 1, p := c.p.withZN (c.x - 1) }),
        (.dey, 0x88, { c with y := c.y - 1, p := c.p.withZN (c.y - 1) })] : List (Instr × Byte × Cpu65)) →
    encode65 i = some op ∧ RunsTo65 i s 1 c'

/-- The seven flag instructions (R302 to R308) change exactly one flag, and `NOP` (R297) nothing. -/
def Obligations.FlagInstructionsChangeOneFlag : Prop :=
  ∀ (i : Instr) (op : Byte) (s : State) (c' : Cpu65), s.fetched65 →
    let c := { s.m65 with t := 0 }
    (i, op, c') ∈
      ([(.clc, 0x18, { c with p := { c.p with c := false } }),
        (.sec, 0x38, { c with p := { c.p with c := true } }),
        (.cli, 0x58, { c with p := { c.p with i := false } }),
        (.sei, 0x78, { c with p := { c.p with i := true } }),
        (.clv, 0xB8, { c with p := { c.p with v := false } }),
        (.cld, 0xD8, { c with p := { c.p with d := false } }),
        (.sed, 0xF8, { c with p := { c.p with d := true } }),
        (.nop, 0xEA, c)] : List (Instr × Byte × Cpu65)) →
    encode65 i = some op ∧ RunsTo65 i s 1 c'

/-- The eight branches (R280 to R287, R179): the target is the address after the instruction plus the signed offset. -/
def Obligations.BranchesGoToTheSignedTarget : Prop :=
  ∀ (i : Instr) (op : Byte) (taken : Bool) (s : State), s.fetched65 →
    let p := s.m65.p
    (i, op, taken) ∈
      ([(.bcc, 0x90, !p.c),
        (.bcs, 0xB0, p.c),
        (.beq, 0xF0, p.z),
        (.bmi, 0x30, p.n),
        (.bne, 0xD0, !p.z),
        (.bpl, 0x10, !p.n),
        (.bvc, 0x50, !p.v),
        (.bvs, 0x70, p.v)] : List (Instr × Byte × Bool)) →
    let after := s.m65.pc + 1
    let target := BitVec.ofInt 16 (after.toInt + (s.peekW s.m65.pc).toInt)
    encode65 i = some op ∧ RunsTo65 i s
      (if taken = false then 1 else if target.toNat / 256 = after.toNat / 256 then 2 else 3)
      { s.m65 with pc := if taken then target else after, t := 0 }

/-- `JMP abs` and `JMP (ind)` (R290, R291): the pointer's high byte comes from the same page. -/
def Obligations.JumpsReachTheirTarget : Prop :=
  ∀ s : State, s.fetched65 →
    let lo := s.peekW s.m65.pc
    let hi := s.peekW (s.m65.pc + 1)
    encode65 .jmpAbs = some 0x4C ∧ encode65 .jmpInd = some 0x6C ∧
    RunsTo65 .jmpAbs s 2 { s.m65 with pc := mkWord hi lo, t := 0 } ∧
    RunsTo65 .jmpInd s 4
      { s.m65 with pc := mkWord (s.peekW (mkWord hi (lo + 1))) (s.peekW (mkWord hi lo)), t := 0 }

/-- `JSR` (R292) and `RTS` (R293). The high operand byte of `JSR` is read after the two pushes, so it is read from the
memory that holds them. -/
def Obligations.SubroutineCallAndReturn : Prop :=
  ∀ s : State, s.fetched65 →
    let top := mkWord 0x01 s.m65.s
    let second := mkWord 0x01 (s.m65.s - 1)
    let ret := s.m65.pc + 1
    encode65 .jsr = some 0x20 ∧ encode65 .rts = some 0x60 ∧
    (∃ t, exec .jsr s = .next t ∧ OnlyCpu65AndMem s t ∧ t.busTrace.length = s.busTrace.length + 5 ∧
      (∀ b, t.peek b =
        if b = top.toNat then hiByte ret else if b = second.toNat then loByte ret else s.peek b) ∧
      t.m65.visible =
        { s.m65 with s := s.m65.s - 2, pc := mkWord (t.peekW ret) (s.peekW s.m65.pc), t := 0 }.visible) ∧
    RunsTo65 .rts s 5
      { s.m65 with
        s := s.m65.s + 2
        pc := mkWord (s.peekW (mkWord 0x01 (s.m65.s + 2))) (s.peekW (mkWord 0x01 (s.m65.s + 1))) + 1
        t := 0 }

/-- `BRK` (R296, R452), the one trap entry: what is saved, where, what changes, and where control goes. -/
def Obligations.BreakEntersTheTrap : Prop :=
  ∀ s : State, s.fetched65 →
    let at0 := mkWord 0x01 s.m65.s
    let at1 := mkWord 0x01 (s.m65.s - 1)
    let at2 := mkWord 0x01 (s.m65.s - 2)
    let ret := s.m65.pc + 1
    encode65 .brk = some 0x00 ∧
    ∃ t, exec .brk s = .next t ∧ OnlyCpu65AndMem s t ∧ t.busTrace.length = s.busTrace.length + 6 ∧
      (∀ b, t.peek b =
        if b = at0.toNat then hiByte ret
        else if b = at1.toNat then loByte ret
        else if b = at2.toNat then s.m65.p.pack true
        else s.peek b) ∧
      t.m65.visible =
        { s.m65 with
          s := s.m65.s - 3
          p := { s.m65.p with i := true, b := true }
          pc := mkWord (s.peekW 0xFFFF) (s.peekW 0xFFFE)
          t := 0 }.visible

/-- `RTI` (R294, R453): the status byte, then the program counter, used as it is. -/
def Obligations.ReturnFromInterruptRestores : Prop :=
  ∀ s : State, s.fetched65 →
    let v := s.peekW (mkWord 0x01 (s.m65.s + 1))
    encode65 .rti = some 0x40 ∧
    RunsTo65 .rti s 5
      { s.m65 with
        s := s.m65.s + 3
        p := { n := v.getLsbD 7, v := v.getLsbD 6, b := s.m65.p.b, d := v.getLsbD 3, i := v.getLsbD 2,
               z := v.getLsbD 1, c := v.getLsbD 0 }
        pc := mkWord (s.peekW (mkWord 0x01 (s.m65.s + 3))) (s.peekW (mkWord 0x01 (s.m65.s + 2)))
        t := 0 }

/-- `PHA` and `PHP` (R298, R299): bits 5 and 4 of the status byte pushed are always set. -/
def Obligations.PushesStoreOnTheStack : Prop :=
  ∀ s : State, s.fetched65 →
    let b := s.m65.p
    encode65 .pha = some 0x48 ∧ encode65 .php = some 0x08 ∧
    StoresTo65 .pha s 2 { s.m65 with s := s.m65.s - 1, t := 0 } (mkWord 0x01 s.m65.s) s.m65.a ∧
    StoresTo65 .php s 2 { s.m65 with s := s.m65.s - 1, t := 0 } (mkWord 0x01 s.m65.s)
      (BitVec.ofNat 8 (128 * b.n.toNat + 64 * b.v.toNat + 32 + 16 + 8 * b.d.toNat + 4 * b.i.toNat +
        2 * b.z.toNat + b.c.toNat))

/-- `PLA` and `PLP` (R300, R301). -/
def Obligations.PullsLoadFromTheStack : Prop :=
  ∀ s : State, s.fetched65 →
    let v := s.peekW (mkWord 0x01 (s.m65.s + 1))
    encode65 .pla = some 0x68 ∧ encode65 .plp = some 0x28 ∧
    RunsTo65 .pla s 3 { s.m65 with s := s.m65.s + 1, a := v, p := s.m65.p.withZN v, t := 0 } ∧
    RunsTo65 .plp s 3
      { s.m65 with
        s := s.m65.s + 1
        p := { n := v.getLsbD 7, v := v.getLsbD 6, b := s.m65.p.b, d := v.getLsbD 3, i := v.getLsbD 2,
               z := v.getLsbD 1, c := v.getLsbD 0 }
        t := 0 }

/-- The table of R168, for all 151 opcodes: N bus operations after Fetch, N from 1 to 6. -/
def Obligations.MicroCycleCounts : Prop :=
  ∀ (i : Instr) (mn : Mn) (mode : Mode) (s : State), i.m65 = some (mn, mode) → s.fetched65 →
    (1 ≤ cycleCount mn mode s ∧ cycleCount mn mode s ≤ 6) ∧
    ∃ t, exec i s = .next t ∧ t.m65.t = 0 ∧ t.busTrace.length = s.busTrace.length + cycleCount mn mode s

/-- Fetch (R161) and the illegal opcode (R162): one bus read, `IR`, `PC`, and `T` or one record. -/
def Obligations.FetchLatchesOrReports : Prop :=
  ∀ s : State, s.cfg.arch.is65 = true → s.m65.t = 0 →
    let op := s.peekW s.m65.pc
    let read := BusOp.read s.m65.pc.toNat op false
    let latched := { s with m65 := { s.m65 with ir := op, pc := s.m65.pc + 1 }, busTrace := s.busTrace ++ [read] }
    (∀ i, decode65 op = .ok i →
      tick65 s = .next { latched with m65 := { latched.m65 with t := 1 } }) ∧
    (∀ e, decode65 op = .error e →
      tick65 s = .next { latched with
        faultLog := s.faultLog ++
          [{ kind := .illegalOpcode, arch := s.cfg.arch, opcode := zext8 op, pc := s.m65.pc + 1,
             regs := .m65 { a := s.m65.a, x := s.m65.x, y := s.m65.y, s := s.m65.s, pc := s.m65.pc + 1,
                            p := s.m65.p, ir := op, t := 0 }, info := none }] })

/-- The step of the machine with no host operation pending: `exec` of the instruction that the bytes at the program counter
decode to, after the fetch, on both families (R160, R322, R480; log 2). With one pending, the step is that operation, the
model's choice (log 2). -/
def Obligations.StepRunsDecodedInstruction : Prop :=
  (∀ (s : State) (i : Instr), s.hostQueue = [] → s.cfg.arch.is65 = true → s.m65.t = 0 →
      decode65 (s.peekW s.m65.pc) = .ok i →
      step s = exec i { s with
        m65 := { s.m65 with ir := s.peekW s.m65.pc, pc := s.m65.pc + 1, t := 1 }
        busTrace := s.busTrace ++ [.read s.m65.pc.toNat (s.peekW s.m65.pc) false] }) ∧
    (∀ (s : State) (i : Instr), s.hostQueue = [] → s.cfg.arch.is65 = true → s.m65.t ≠ 0 →
      decode65 s.m65.ir = .ok i → step s = exec i s) ∧
    (∀ (s : State) (i : Instr), s.hostQueue = [] → s.cfg.arch.is65 = false →
      (s.cfg.arch = .xochip → s.xo.halted = false ∧ (s.xo.bpEn = true → s.c8.pc ≠ s.xo.bpAddr)) →
      decodeC8 s.cfg.arch (mkWord (s.readVal s.c8.pc.toNat) (s.readVal (s.c8.pc.toNat + 1))) = .ok i →
      step s = exec i s.fetchedC8) ∧
    (∀ (s : State) (o : HostOp) (rest : List HostOp), s.hostQueue = o :: rest →
      step s = runHostOp o { s with hostQueue := rest })

/-- A `tick` of the 6502 family from a legal state (R160, R165, R191): exactly one bus operation, never out of range, and `T`
stays a legal row. `steps` is ignored, and `loggedStep` does the same (R79). -/
def Obligations.TickIsOneBusOperation : Prop :=
  ∀ s : State, s.cfg.arch.is65 = true → s.inFlightLegal = true →
    ∃ t, tick65 s = .next t ∧ t.inFlightLegal = true ∧ t.m65.t.toNat ≤ 6 ∧
      (∃ addr data, addr < 65536 ∧
        (t.busTrace = s.busTrace ++ [.read addr data false] ∨ t.busTrace = s.busTrace ++ [.write addr data false])) ∧
      (∀ steps rest, step { s with hostQueue := .tick steps :: rest } = tick65 { s with hostQueue := rest } ∧
        step { s with hostQueue := .loggedStep steps :: rest } = tick65 { s with hostQueue := rest })

/-- An instruction of the 6502 family is the run of its micro-cycles (R160, R164, R480): from Fetch it takes exactly N + 1
`tick` calls, `T` is not 0 in between, and from any point in flight the ticks that are left lead to the same end. -/
def Obligations.InstructionIsItsTicks : Prop :=
  (∀ (s : State) (i : Instr) (mn : Mn) (mode : Mode), s.cfg.arch.is65 = true → s.m65.t = 0 →
      decode65 (s.peekW s.m65.pc) = .ok i → i.m65 = some (mn, mode) →
      ticks65 (cycleCount mn mode s.fetch65 + 1) s = runToReady65 s ∧
      ∀ k, 0 < k → k < cycleCount mn mode s.fetch65 + 1 → ∃ u, ticks65 k s = .next u ∧ u.m65.t ≠ 0) ∧
    (∀ s : State, s.cfg.arch.is65 = true → s.inFlightLegal = true →
      ∃ n t, 1 ≤ n ∧ n ≤ 7 ∧ ticks65 n s = .next t ∧ runToReady65 s = .next t ∧ t.m65.t = 0 ∧
        ∀ k, 0 < k → k < n → ∃ u, ticks65 k s = .next u ∧ u.m65.t ≠ 0)

/-- The scratch fields before an instruction do not matter (R31): two states that differ in them alone run every 6502
instruction to states that differ in them alone. -/
def Obligations.ScratchIsNotObserved : Prop :=
  ∀ (i : Instr) (s s' : State), s.fetched65 → i.m65.isSome = true → s'.m65.visible = s.m65.visible →
    s' = { s with m65 := s'.m65 } →
    ∃ t t', exec i s = .next t ∧ exec i s' = .next t' ∧ t'.m65.visible = t.m65.visible ∧
      t' = { t with m65 := t'.m65 }

/-- `JP nnn` (R350) and `JP V0, nnn` (R353): the sum is not masked to 12 bits. -/
def Obligations.JumpsSetProgramCounter : Prop :=
  ∀ (nnn : BitVec 12) (s : State),
    let v := if s.cfg.qJumpVx then s.c8.v.toList.getD (nnn.toNat / 256) 0 else s.c8.v.toList.getD 0 0
    (encodeC8 (.jp nnn) = some (0x1#4 ++ nnn) ∧
      exec (.jp nnn) s = .next { s with c8 := { s.c8 with pc := BitVec.ofNat 16 nnn.toNat } }) ∧
    (encodeC8 (.jpV0 nnn) = some (0xB#4 ++ nnn) ∧
      exec (.jpV0 nnn) s = .next { s with c8 := { s.c8 with pc := BitVec.ofNat 16 (nnn.toNat + v.toNat) } }) ∧
    ((Config.standard .chip8).qJumpVx = false ∧ (Config.standard .xochip).qJumpVx = false)

/-- `CALL` (R352) and `RET` (R351): a push or a pop, or one record and nothing else. The depth is 12 on CHIP8 and 16 on
XOCHIP. -/
def Obligations.CallStackNeverOverflows : Prop :=
  Arch.chip8.stackDepth = 12 ∧ Arch.xochip.stackDepth = 16 ∧
    ∀ (nnn : BitVec 12) (s : State),
      (s.c8.sp.toNat < s.cfg.arch.stackDepth →
        ∃ t, exec (.call nnn) s = .next t ∧
          t = { s with c8 := { s.c8 with sp := s.c8.sp + 1, pc := BitVec.ofNat 16 nnn.toNat, stack := t.c8.stack } } ∧
          ∀ k, k < 16 → t.c8.stack.toList.getD k 0 =
            if k = s.c8.sp.toNat then s.c8.pc else s.c8.stack.toList.getD k 0) ∧
      (s.c8.sp.toNat = s.cfg.arch.stackDepth →
        exec (.call nnn) s = .next { s with faultLog := s.faultLog ++ [s.faultRecord .stackOverflow none] }) ∧
      (s.c8.sp ≠ 0 →
        exec .ret s = .next { s with c8 := { s.c8 with
          sp := s.c8.sp - 1, pc := s.c8.stack.toList.getD (s.c8.sp.toNat - 1) 0 } }) ∧
      (s.c8.sp = 0 →
        exec .ret s = .next { s with faultLog := s.faultLog ++ [s.faultRecord .stackUnderflow none] })

/-- The six skips (R354 to R357, R372, R373) over the helper of R325. -/
def Obligations.SkipsStepOverTheNextInstruction : Prop :=
  ∀ (x y : BitVec 4) (nn : Byte) (s : State) (i : Instr) (cond : Bool),
    let key := s.c8.key.toList.getD ((s.reg x).toNat % 16) false
    (i, cond) ∈
      ([(.seImm x nn, decide (s.reg x = nn)), (.sneImm x nn, decide (s.reg x ≠ nn)),
        (.seReg x y, decide (s.reg x = s.reg y)), (.sneReg x y, decide (s.reg x ≠ s.reg y)),
        (.skp x, key), (.sknp x, !key)] : List (Instr × Bool)) →
    (cond = false → exec i s = .next s) ∧
    (cond = true → s.cfg.arch ≠ .xochip → exec i s = .next { s with c8 := { s.c8 with pc := s.c8.pc + 2 } }) ∧
    (cond = true → s.cfg.arch = .xochip →
      ∃ t, exec i s = .next t ∧
        t = { s with
          c8 := { s.c8 with
            pc := if mkWord (s.readVal s.c8.pc.toNat) (s.readVal (s.c8.pc.toNat + 1)) = 0xF000 then s.c8.pc + 4
                  else s.c8.pc + 2 }
          faultLog := t.faultLog
          busTrace := s.busTrace ++ busReads s s.c8.pc.toNat 2 } ∧
        AppendsFaults s t (rangeFaults s.cfg .outOfBoundsRead s.c8.pc.toNat 2))

/-- Register loads, the immediate add and the timer moves (R358, R359, R360, R374, R375, R376). -/
def Obligations.RegisterMovesAndTimers : Prop :=
  ∀ (x y : BitVec 4) (nn : Byte) (s : State),
    (∀ (i : Instr) (v : Byte),
      (i, v) ∈ ([(.ldImm x nn, nn), (.addImm x nn, BitVec.ofNat 8 ((s.reg x).toNat + nn.toNat)),
                 (.ldReg x y, s.reg y), (.ldVxDt x, s.c8.dt)] : List (Instr × Byte)) →
      ∃ t, exec i s = .next t ∧ t = { s with c8 := { s.c8 with v := t.c8.v } } ∧
        ∀ r, t.reg r = if r = x then v else s.reg r) ∧
    exec (.ldDtVx x) s = .next { s with c8 := { s.c8 with dt := s.reg x } } ∧
    exec (.ldStVx x) s = .next { s with c8 := { s.c8 with st := s.reg x } }

/-- `OR`, `AND`, `XOR` (R362, R363, R364). -/
def Obligations.LogicGroupResetsVF : Prop :=
  ∀ (x y : BitVec 4) (s : State) (i : Instr) (v : Byte),
    (i, v) ∈ ([(.orReg x y, s.reg x ||| s.reg y), (.andReg x y, s.reg x &&& s.reg y),
               (.xorReg x y, s.reg x ^^^ s.reg y)] : List (Instr × Byte)) →
    ((Config.standard .chip8).qLogicVfReset = true ∧ (Config.standard .xochip).qLogicVfReset = false) ∧
    ∃ t, exec i s = .next t ∧ t = { s with c8 := { s.c8 with v := t.c8.v } } ∧
      ∀ r, t.reg r = if r = 15 ∧ s.cfg.qLogicVfReset = true then 0 else if r = x then v else s.reg r

/-- `ADD`, `SUB`, `SUBN` (R365, R366, R368) under the `VF` rule (R361): result first, flag last, both from the old values. -/
def Obligations.ArithmeticGroupSetsVF : Prop :=
  ∀ (x y : BitVec 4) (s : State) (i : Instr) (v : Byte) (f : Bool),
    let a := (s.reg x).toNat
    let b := (s.reg y).toNat
    (i, v, f) ∈ ([(.addReg x y, BitVec.ofNat 8 (a + b), decide (256 ≤ a + b)),
                  (.subReg x y, BitVec.ofInt 8 ((a : Int) - b), decide (b ≤ a)),
                  (.subnReg x y, BitVec.ofInt 8 ((b : Int) - a), decide (a ≤ b))] : List (Instr × Byte × Bool)) →
    ∃ t, exec i s = .next t ∧ t = { s with c8 := { s.c8 with v := t.c8.v } } ∧
      ∀ r, t.reg r = if r = 15 then (if f then 1 else 0) else if r = x then v else s.reg r

/-- `SHR` and `SHL` (R367, R369): the source is `V[y]` under `Q_SHIFT_VY`, else `V[x]`. -/
def Obligations.ShiftGroupSetsVF : Prop :=
  ∀ (x y : BitVec 4) (s : State) (i : Instr) (v : Byte) (f : Nat),
    let src := (if s.cfg.qShiftVy then s.reg y else s.reg x).toNat
    (i, v, f) ∈ ([(.shrReg x y, BitVec.ofNat 8 (src / 2), src % 2),
                  (.shlReg x y, BitVec.ofNat 8 (2 * src), src / 128)] : List (Instr × Byte × Nat)) →
    ((Config.standard .chip8).qShiftVy = true ∧ (Config.standard .xochip).qShiftVy = true) ∧
    ∃ t, exec i s = .next t ∧ t = { s with c8 := { s.c8 with v := t.c8.v } } ∧
      ∀ r, t.reg r = if r = 15 then BitVec.ofNat 8 f else if r = x then v else s.reg r

/-- `RND` (R371): the drawn byte is a free value of the model (log 5); the statement holds for every stream. -/
def Obligations.RandomMasksTheDrawnByte : Prop :=
  ∀ (x : BitVec 4) (nn : Byte) (s : State),
    ∃ t, exec (.rnd x nn) s = .next t ∧
      t = { s with c8 := { s.c8 with v := t.c8.v }, randDraws := s.randDraws + 1 } ∧
      ∀ r, t.reg r = if r = x then Config.rand s.randDraws &&& nn else s.reg r

/-- `LD I`, `ADD I`, `LD F`, `LD HF` (R370, R377, R379, R425): `I` alone changes, `VF` is not written. -/
def Obligations.IndexRegisterWrites : Prop :=
  ∀ (x : BitVec 4) (nnn : BitVec 12) (s : State) (i : Instr) (v : Nat),
    let d := (s.reg x).toNat % 16
    (i, v) ∈ ([(.ldI nnn, nnn.toNat), (.addI x, s.c8.i.toNat + (s.reg x).toNat), (.ldF x, 5 * d),
               (.ldHf x, 0x50 + 10 * d)] : List (Instr × Nat)) →
    exec i s = .next { s with c8 := { s.c8 with i := BitVec.ofNat 16 v } }

/-- `LD Vx, K` (R378): arm, keep waiting, or take the released key; of two keys released between two executions the last
one wins, and on an instance that follows D37 the first (log 11). The latch itself is R76's. -/
def Obligations.KeyWaitReexecutesUntilRelease : Prop :=
  ∀ (x : BitVec 4) (s : State),
    (s.c8.kwWait = false →
      exec (.ldVxK x) s = .next { s with c8 := { s.c8 with kwWait := true, kwValid := false, pc := s.c8.pc - 2 } }) ∧
    (s.c8.kwWait = true → s.c8.kwValid = true →
      ∃ t, exec (.ldVxK x) s = .next t ∧
        t = { s with c8 := { s.c8 with v := t.c8.v, kwWait := false, kwValid := false } } ∧
        ∀ r, t.reg r = if r = x then BitVec.ofNat 8 s.c8.kwIndex.toNat else s.reg r) ∧
    (s.c8.kwWait = true → s.c8.kwValid = false →
      exec (.ldVxK x) s = .next { s with c8 := { s.c8 with pc := s.c8.pc - 2 } }) ∧
    (∀ j k : BitVec 4, s.cfg.arch.is65 = false → s.c8.kwWait = true → j ≠ k → s.keyDown j = true → s.keyDown k = true →
      ∃ a b t, runHostOp (.setKeyState j.toNat false) s = .next a ∧ runHostOp (.setKeyState k.toNat false) a = .next b ∧
        exec (.ldVxK x) b = .next t ∧ t.c8.kwWait = false ∧ t.c8.pc = s.c8.pc ∧
        t.reg x = BitVec.ofNat 8 (match s.cfg.keyEdge with
          | .everyRelease => k.toNat
          | .firstInWait => if s.c8.kwValid then s.c8.kwIndex.toNat else j.toNat))

/-- `LD B, Vx` (R380): three bytes, each checked on its own. -/
def Obligations.DecimalDigitsAreStored : Prop :=
  ∀ (x : BitVec 4) (s : State),
    let a := s.c8.i.toNat
    let v := (s.reg x).toNat
    ∃ t, exec (.ldB x) s = .next t ∧
      t = { s with mem := t.mem, faultLog := t.faultLog, busTrace := t.busTrace } ∧
      (∀ b, t.peek b =
        if s.cfg.memSize ≤ b then s.peek b
        else if b = a then BitVec.ofNat 8 (v / 100)
        else if b = a + 1 then BitVec.ofNat 8 (v / 10 % 10)
        else if b = a + 2 then BitVec.ofNat 8 (v % 10)
        else s.peek b) ∧
      AppendsFaults s t (rangeFaults s.cfg .outOfBoundsWrite a 3)

/-- `LD [I], Vx` (R381) and `SAVE Vx-Vy` (R420). -/
def Obligations.RegisterBlocksAreStored : Prop :=
  ∀ (x y : BitVec 4) (s : State),
    let a := s.c8.i.toNat
    let count := max (x.toNat - y.toNat) (y.toNat - x.toNat) + 1
    ((Config.standard .chip8).qMemIncI = true ∧ (Config.standard .xochip).qMemIncI = true) ∧
    (∃ t, exec (.ldMemVx x) s = .next t ∧
      t = { s with
        c8 := { s.c8 with i := if s.cfg.qMemIncI then BitVec.ofNat 16 (a + x.toNat + 1) else s.c8.i }
        mem := t.mem, faultLog := t.faultLog, busTrace := t.busTrace } ∧
      (∀ b, t.peek b =
        if a ≤ b ∧ b ≤ a + x.toNat ∧ b < s.cfg.memSize then s.c8.v.toList.getD (b - a) 0 else s.peek b) ∧
      AppendsFaults s t (rangeFaults s.cfg .outOfBoundsWrite a (x.toNat + 1))) ∧
    (∃ t, exec (.saveRange x y) s = .next t ∧
      t = { s with mem := t.mem, faultLog := t.faultLog, busTrace := t.busTrace } ∧
      (∀ b, t.peek b =
        if a ≤ b ∧ b < a + count ∧ b < s.cfg.memSize then
          s.c8.v.toList.getD (if x.toNat ≤ y.toNat then x.toNat + (b - a) else x.toNat - (b - a)) 0
        else s.peek b) ∧
      AppendsFaults s t (rangeFaults s.cfg .outOfBoundsWrite a count))

/-- `LD Vx, [I]` (R382) and `LOAD Vx-Vy` (R421): an address past the memory gives 0 and one record. -/
def Obligations.RegisterBlocksAreLoaded : Prop :=
  ∀ (x y : BitVec 4) (s : State),
    let a := s.c8.i.toNat
    let count := max (x.toNat - y.toNat) (y.toNat - x.toNat) + 1
    (∃ t, exec (.ldVxMem x) s = .next t ∧
      t = { s with
        c8 := { s.c8 with
          v := t.c8.v, i := if s.cfg.qMemIncI then BitVec.ofNat 16 (a + x.toNat + 1) else s.c8.i }
        faultLog := t.faultLog, busTrace := s.busTrace ++ busReads s a (x.toNat + 1) } ∧
      (∀ r : BitVec 4, t.reg r = if r.toNat ≤ x.toNat then s.readVal (a + r.toNat) else s.reg r) ∧
      AppendsFaults s t (rangeFaults s.cfg .outOfBoundsRead a (x.toNat + 1))) ∧
    (∃ t, exec (.loadRange x y) s = .next t ∧
      t = { s with
        c8 := { s.c8 with v := t.c8.v }
        faultLog := t.faultLog, busTrace := s.busTrace ++ busReads s a count } ∧
      (∀ r : BitVec 4, t.reg r =
        if min x.toNat y.toNat ≤ r.toNat ∧ r.toNat ≤ max x.toNat y.toNat then
          s.readVal (a + max (r.toNat - x.toNat) (x.toNat - r.toNat))
        else s.reg r) ∧
      AppendsFaults s t (rangeFaults s.cfg .outOfBoundsRead a count))

/-- `LD I, long NNNN` (R422): the big-endian word after the opcode. -/
def Obligations.LongIndexLoad : Prop :=
  ∀ s : State,
    ∃ t, exec .ldILong s = .next t ∧
      t = { s with
        c8 := { s.c8 with
          i := BitVec.ofNat 16 (256 * (s.readVal s.c8.pc.toNat).toNat + (s.readVal (s.c8.pc.toNat + 1)).toNat)
          pc := s.c8.pc + 2 }
        faultLog := t.faultLog
        busTrace := s.busTrace ++ busReads s s.c8.pc.toNat 2 } ∧
      AppendsFaults s t (rangeFaults s.cfg .outOfBoundsRead s.c8.pc.toNat 2)

/-- `PLANE` (R423), `PITCH` (R426, R52) with the output of R74, a real number (log 16) that XOCHIP alone provides, `LOW` and
`HIGH` (R410, R411). -/
def Obligations.XochipControlsWriteOneRegister : Prop :=
  ∀ (x n : BitVec 4) (s : State),
    exec (.plane n) s = .next { s with xo := { s.xo with plane := n } } ∧
    (∃ t, exec (.pitch x) s = .next t ∧ t = { s with xo := { s.xo with pitch := s.reg x } } ∧
      (s.cfg.arch ≠ .xochip → t.getPitch = none) ∧
      (s.cfg.arch = .xochip →
        t.getPitch = some (4000 * (2 : ℝ) ^ ((((s.reg x).toNat : ℝ) - 64) / 48)) ∧
        (s.reg x = 64 → t.getPitch = some 4000) ∧ (s.reg x = 112 → t.getPitch = some 8000) ∧
        (s.reg x = 16 → t.getPitch = some 2000))) ∧
    (∀ (i : Instr) (hi : Bool), (i, hi) ∈ ([(.low, false), (.high, true)] : List (Instr × Bool)) →
      ∃ t, exec i s = .next t ∧ t = { s with c8 := { s.c8 with fb := t.c8.fb }, xo := { s.xo with hires := hi } } ∧
        ∀ cx cy, t.c8.fb.cell cx cy = 0)

/-- `AUDIO` (R424) and the waveform that follows the pattern (R58). -/
def Obligations.AudioPatternIsLoaded : Prop :=
  ∀ s : State,
    ∃ t, exec .audio s = .next t ∧
      t = { s with
        xo := { s.xo with pattern := t.xo.pattern }
        faultLog := t.faultLog
        busTrace := s.busTrace ++ busReads s s.c8.i.toNat 16 } ∧
      (∀ k, k < 16 → t.xo.pattern.toList.getD k 0 = s.readVal (s.c8.i.toNat + k)) ∧
      (∀ k : Fin 128, t.wave k = (s.readVal (s.c8.i.toNat + k.val / 8)).getLsbD (7 - k.val % 8)) ∧
      AppendsFaults s t (rangeFaults s.cfg .outOfBoundsRead s.c8.i.toNat 16)

/-- `LD R, Vx` (R427) and `LD Vx, R` (R428): no bus operation. -/
def Obligations.PersistentFlagsSaveAndRestore : Prop :=
  ∀ (x : BitVec 4) (s : State),
    (∃ t, exec (.ldRVx x) s = .next t ∧ t = { s with xo := { s.xo with flags := t.xo.flags } } ∧
      ∀ k, k < 16 → t.xo.flags.toList.getD k 0 =
        if k ≤ x.toNat then s.c8.v.toList.getD k 0 else s.xo.flags.toList.getD k 0) ∧
    (∃ t, exec (.ldVxR x) s = .next t ∧ t = { s with c8 := { s.c8 with v := t.c8.v } } ∧
      ∀ k, k < 16 → t.c8.v.toList.getD k 0 =
        if k ≤ x.toNat then s.xo.flags.toList.getD k 0 else s.c8.v.toList.getD k 0)

/-- `CLS` (R400). -/
def Obligations.ClearAffectsSelectedPlanes : Prop :=
  ∀ s : State,
    ∃ t, exec .cls s = .next t ∧ t = { s with c8 := { s.c8 with fb := t.c8.fb } } ∧
      ∀ x y, t.c8.fb.cell x y = if s.cfg.arch = .xochip then s.c8.fb.cell x y &&& ~~~s.xo.plane else 0

/-- `DRW` (R401), as a closed form over the old state: every cell of a logical pixel that the sprite covers in some selected plane
holds the old pixel with those planes toggled, every other cell is as before, `VF` tells whether a set bit was
toggled off. `drawMask` places the sprite: selected planes one after the other from `I`, bit 7 leftmost, both
coordinates wrapping. -/
def Obligations.DrawIsAWrappingXorBlit : Prop :=
  ∀ (x y n : BitVec 4) (s : State),
    let K := s.pixelSide
    let LW := s.logicalWidth
    let LH := s.logicalHeight
    ∃ t, exec (.drw x y n) s = .next t ∧
      t = { s with c8 := { s.c8 with v := t.c8.v, fb := t.c8.fb }, faultLog := t.faultLog,
                   busTrace := t.busTrace } ∧
      (∀ r, t.reg r ≠ s.reg r → r = 15) ∧
      (∀ cx cy, t.c8.fb.cell cx cy =
        if cx / K < LW ∧ cy / K < LH ∧ s.drawMask x y n (cx / K) (cy / K) ≠ 0 then
          s.getPx (cx / K) (cy / K) ^^^ s.drawMask x y n (cx / K) (cy / K)
        else s.c8.fb.cell cx cy) ∧
      (t.reg 15 = 0 ∨ t.reg 15 = 1) ∧
      (t.reg 15 = 1 ↔ ∃ px py, px < LW ∧ py < LH ∧ s.getPx px py &&& s.drawMask x y n px py ≠ 0) ∧
      (let count := s.drawPlanes.length * ((s.spriteShape n).1 * (s.spriteShape n).2)
       t.busTrace = s.busTrace ++ busReads s s.c8.i.toNat count ∧
       AppendsFaults s t (rangeFaults s.cfg .outOfBoundsRead s.c8.i.toNat count))

/-- `SCD`, `SCU`, `SCR`, `SCL` (R403 to R407), on XOCHIP, in logical pixels of the current resolution. -/
def Obligations.ScrollsMoveSelectedPlanes : Prop :=
  ∀ (n : BitVec 4) (s : State) (i : Instr) (dx dy : Int), s.cfg.arch = .xochip →
    (i, dx, dy) ∈ ([(.scd n, 0, (n.toNat : Int)), (.scu n, 0, -(n.toNat : Int)), (.scr, 4, 0), (.scl, -4, 0)]
      : List (Instr × Int × Int)) →
    ∃ t, exec i s = .next t ∧ t = { s with c8 := { s.c8 with fb := t.c8.fb } } ∧
      ∀ cx cy, cx < 128 → cy < 64 →
        let lx := cx / s.pixelSide
        let ly := cy / s.pixelSide
        let sx : Int := lx - dx
        let sy : Int := ly - dy
        t.c8.fb.cell cx cy =
          (s.getPx lx ly &&& ~~~s.xo.plane) |||
            ((if 0 ≤ sx ∧ sx < s.logicalWidth ∧ 0 ≤ sy ∧ sy < s.logicalHeight then s.getPx sx.toNat sy.toNat
              else 0) &&& s.xo.plane)

/-- An unknown CHIP-8 opcode (R324, R137), wherever `PC` stands (R322, R443): the reports of the fetch reads that are out
of range, each with the previous `OP`, then one record with the opcode fetched; `PC` 2 further, and nothing else. On
CHIP8 a `PC` of 0x1000 or more fetches 0x0000: three records a step. -/
def Obligations.UnknownOpcodeIsOneRecord : Prop :=
  (∀ (s : State) (e : DecodeError), s.cfg.arch.is65 = false →
      let op := mkWord (s.readVal s.c8.pc.toNat) (s.readVal (s.c8.pc.toNat + 1))
      decodeC8 s.cfg.arch op = .error e →
      macroStep s = .next { s.fetchedC8 with
        faultLog := s.faultLog ++ s.fetchReports ++
          [{ kind := .unknownOpcode, arch := s.cfg.arch, opcode := op, pc := s.c8.pc + 2,
             regs := s.fetchedC8.dumpState, info := none }] }) ∧
    (∀ s : State, s.cfg.arch = .chip8 → 0x1000 ≤ s.c8.pc.toNat →
      ∃ t, macroStep s = .next t ∧ t.c8.pc = s.c8.pc + 2 ∧ t.c8.op = 0 ∧
        AppendsFaults s t [(.outOfBoundsRead, some s.c8.pc.toNat), (.outOfBoundsRead, some (s.c8.pc.toNat + 1)),
                           (.unknownOpcode, none)]) ∧
    (∀ nnn : BitVec 12, nnn ≠ 0x0E0 → nnn ≠ 0x0EE →
      decodeC8 .chip8 (0x0#4 ++ nnn) = .error (.unknownOpcode (0x0#4 ++ nnn))) ∧
    decodeC8 .xochip 0x00FD = .error (.unknownOpcode 0x00FD)

/-- The bus contract (R81, R82, R84): a write reads back, leaves every other address alone, and an out-of-range access is a
no-op with exactly one record. -/
def Obligations.BusReadsBackAndReportsOnce : Prop :=
  ∀ (s : State) (a : Nat) (v : Byte),
    (a < s.cfg.memSize →
      (s.memWrite a v).readVal a = v ∧ (∀ b, b ≠ a → (s.memWrite a v).readVal b = s.readVal b) ∧
      (s.memWrite a v).faultLog = s.faultLog ∧ (s.afterRead a).faultLog = s.faultLog ∧
      s.readVal a = s.peek a) ∧
    (s.cfg.memSize ≤ a →
      s.readVal a = 0 ∧ (s.memWrite a v).mem = s.mem ∧
      (s.afterRead a).faultLog = s.faultLog ++ [s.faultRecord .outOfBoundsRead (some a)] ∧
      (s.memWrite a v).faultLog = s.faultLog ++ [s.faultRecord .outOfBoundsWrite (some a)]) ∧
    (s.afterRead a = { s with faultLog := (s.afterRead a).faultLog, busTrace := (s.afterRead a).busTrace }) ∧
    (s.memWrite a v = { s with mem := (s.memWrite a v).mem, faultLog := (s.memWrite a v).faultLog,
                               busTrace := (s.memWrite a v).busTrace })

/-- The XOCHIP breakpoint (R320, R321, R323, R78): `HALTED` is set, then one report of `CYCLES` and the registers is
taken, whose dump (R77) therefore shows `HALTED` = 1; then no progress until it is cleared. -/
def Obligations.BreakpointHaltsUntilCleared : Prop :=
  (∀ (s : State) (k : Nat), s.cfg.arch = .xochip → s.xo.halted = true → tickC8 k s = .next s) ∧
    (∀ (s : State) (k : Nat), s.cfg.arch = .xochip → s.xo.halted = false → s.xo.bpEn = true →
      s.c8.pc = s.xo.bpAddr →
      tickC8 (k + 1) s = .next { s with
        xo := { s.xo with
          halted := true
          debugLog := s.xo.debugLog ++
            [(s.xo.cycles, .xochip
              { v := s.c8.v, i := s.c8.i, pc := s.c8.pc, sp := s.c8.sp,
                stack := s.c8.stack.toList.take s.c8.sp.toNat, dt := s.c8.dt, st := s.c8.st }
              { plane := s.xo.plane, hires := s.xo.hires, pitch := s.xo.pitch, cycles := s.xo.cycles,
                halted := true })] } }) ∧
    (∀ (s : State) (a : Nat), s.cfg.arch = .xochip →
      runHostOp (.setBreakpoint a) s =
        .next { s with xo := { s.xo with bpEn := true, bpAddr := BitVec.ofNat 16 a } } ∧
      runHostOp .clearBreakpoint s = .next { s with xo := { s.xo with bpEn := false, halted := false } }) ∧
    (∀ (s : State) (a : Nat), s.cfg.arch ≠ .xochip →
      runHostOp (.setBreakpoint a) s = .next s ∧ runHostOp .clearBreakpoint s = .next s)

/-- `tick(steps)` (R320) is its macro-steps one after the other. With display wait (R326) a `DRW` on CHIP8 drops the rest of
the budget, and any other opcode, known or unknown, runs and the rest of the budget follows. The host's `tick` and
`loggedStep` are that on the CHIP-8 family (R70, R79). -/
def Obligations.TickBudgetIsSplitOrTruncated : Prop :=
  (∀ (s : State) (k l : Nat), s.cfg.arch = .xochip ∨ s.cfg.displayWait = false →
      tickC8 (k + l) s =
        match tickC8 k s with
        | .next t => tickC8 l t
        | .fault r => .fault r
        | .refused r => .refused r) ∧
    (∀ (s : State) (k : Nat) (x y n : BitVec 4), s.cfg.arch = .chip8 → s.cfg.displayWait = true →
      s.readVal2 s.c8.pc.toNat = 0xD#4 ++ x ++ y ++ n →
      tickC8 (k + 1) s = exec (.drw x y n) s.fetchedC8) ∧
    (∀ (s : State) (k : Nat), s.cfg.arch = .chip8 → s.cfg.displayWait = true →
      opTop (s.readVal2 s.c8.pc.toNat) ≠ 0xD →
      ∃ t, macroStep s = .next t ∧ tickC8 (k + 1) s = tickC8 k t) ∧
    (∀ s : State, tickC8 0 s = .next s) ∧
    (∀ (s : State) (k : Nat), s.cfg.arch.is65 = false →
      runHostOp (.tick k) s = tickC8 k s ∧ runHostOp (.loggedStep k) s = tickC8 k s)

/-- `decayTimers` (R330): each call lowers each non-zero timer by one; nothing underflows. It is what the host operation
does on the CHIP-8 family (R70). -/
def Obligations.TimersDecayToZero : Prop :=
  ∀ (s : State) (k : Nat),
    let t := Nat.iterate State.decayTimers k s
    t.c8.dt.toNat = s.c8.dt.toNat - k ∧ t.c8.st.toNat = s.c8.st.toNat - k ∧
      t = { s with c8 := { s.c8 with dt := t.c8.dt, st := t.c8.st } } ∧
      (s.cfg.arch.is65 = false →
        t.getSoundActive = some (decide (k < s.c8.st.toNat)) ∧ runHostOp .decayTimers s = .next s.decayTimers)

/-- `setKeyState` (R76): a key going from pressed to released is latched, no other change of a key is. An instance that
follows D37 latches it during a key wait with no edge yet (log 11). -/
def Obligations.ReleaseEdgesAreLatched : Prop :=
  ∀ (s : State) (k : Nat) (pressed : Bool), s.cfg.arch.is65 = false →
    (16 ≤ k → runHostOp (.setKeyState k pressed) s = .refused .keyIndexOutOfRange) ∧
    (k < 16 →
      let released := s.c8.key.toList.getD k false = true ∧ pressed = false ∧
        (s.cfg.keyEdge = .firstInWait → s.c8.kwWait = true ∧ s.c8.kwValid = false)
      ∃ t, runHostOp (.setKeyState k pressed) s = .next t ∧
        t = { s with c8 := { s.c8 with
          key := t.c8.key, kwValid := t.c8.kwValid, kwIndex := t.c8.kwIndex } } ∧
        (∀ j, j < 16 → t.c8.key.toList.getD j false = if j = k then pressed else s.c8.key.toList.getD j false) ∧
        (released → t.c8.kwValid = true ∧ t.c8.kwIndex = BitVec.ofNat 4 k) ∧
        (¬ released → t.c8.kwValid = s.c8.kwValid ∧ t.c8.kwIndex = s.c8.kwIndex))

/-- `Reset` (R471) and `PowerOn` (R470): every register at its stated value, what survives, and memory at power-on. That
`PowerOn` keeps the pending host operations is the model's choice (log 18). -/
def Obligations.ResetAndPowerOnValues : Prop :=
  (∀ s : State, s.cfg.arch.is65 = true →
      ∃ t, runHostOp .reset s = .next t ∧ t = { s with m65 := t.m65 } ∧
        t.m65 = { a := 0, x := 0, y := 0, s := 0xFD, pc := mkWord (s.peek 0xFFFD) (s.peek 0xFFFC),
                  p := { n := false, v := false, b := false, d := false, i := true, z := false, c := false },
                  ir := 0, t := 0, adl := 0, adh := 0, ptr := 0, data := 0, pgx := false }) ∧
    (∀ s : State, s.cfg.arch.is65 = false →
      ∃ t, runHostOp .reset s = .next t ∧ t = { s with c8 := t.c8, xo := t.xo } ∧
        (∀ r, t.reg r = 0) ∧ t.c8.i = 0 ∧ t.c8.pc = 0x200 ∧ t.c8.sp = 0 ∧ t.c8.dt = 0 ∧ t.c8.st = 0 ∧ t.c8.op = 0 ∧
        (∀ k, k < 16 → t.c8.stack.toList.getD k 0 = 0 ∧ t.c8.key.toList.getD k true = false ∧
          t.xo.pattern.toList.getD k 1 = 0) ∧
        t.c8.kwWait = false ∧ t.c8.kwValid = false ∧ t.c8.kwIndex = 0 ∧ (∀ x y, t.c8.fb.cell x y = 0) ∧
        t.xo = { s.xo with plane := 1, hires := false, pitch := 64, pattern := t.xo.pattern, halted := false,
                           cycles := 0 }) ∧
    (∀ s : State, ∃ t, runHostOp .powerOn s = .next t ∧ t.cfg = s.cfg ∧ t.faultLog = [] ∧ t.hostQueue = s.hostQueue ∧
      (∃ u, runHostOp .reset t = .next u ∧ u = t) ∧
      (∀ a, a < s.cfg.memSize → t.peek a =
        if s.cfg.arch.is65 then 0
        else if a < 80 then fontBytes.getD a 0
        else if s.cfg.arch = .xochip ∧ a < 240 then s.cfg.bigfont.toList.getD (a - 80) 0
        else 0) ∧
      (∀ k, k < 16 → t.xo.flags.toList.getD k 1 = 0) ∧ t.xo.bpEn = false ∧ t.xo.bpAddr = 0 ∧ t.xo.debugLog = [])

/-- `loadProgram` (R95): bytes to ascending addresses from the program origin through the bus, `FB` cleared on the CHIP-8
family, no register changed. -/
def Obligations.LoadProgramCopiesBytes : Prop :=
  ∀ (s : State) (bytes : List Byte),
    let origin := if s.cfg.arch.is65 then s.cfg.m65ProgramOrigin.toNat else 0x200
    ∃ t, runHostOp (.loadProgram bytes) s = .next t ∧
      t = { s with c8 := { s.c8 with fb := t.c8.fb }, mem := t.mem, faultLog := t.faultLog,
                   busTrace := t.busTrace } ∧
      (s.cfg.arch.is65 = true → t.c8.fb = s.c8.fb) ∧
      (s.cfg.arch.is65 = false → ∀ x y, t.c8.fb.cell x y = 0) ∧
      (∀ a, t.peek a =
        if origin ≤ a ∧ a < origin + bytes.length ∧ a < s.cfg.memSize then bytes.getD (a - origin) 0
        else s.peek a) ∧
      AppendsFaults s t (rangeFaults s.cfg .outOfBoundsWrite origin bytes.length)

/-- Decoding and encoding are inverse (R120, R125, R130, R135, R136): every instruction of an architecture, every operand at
every value, decodes from its own encoding, and whatever decodes is an instruction of the architecture at the
head of exactly its encoding. -/
def Obligations.DecodeAndEncodeAgree : Prop :=
  (∀ (a : Arch) (i : Instr) (rest : List Byte), i.wellFormed a = true →
      decode a (encode i ++ rest) = .ok (i, rest)) ∧
    (∀ (a : Arch) (bytes : List Byte) (i : Instr) (rest : List Byte), decode a bytes = .ok (i, rest) →
      i.wellFormed a = true ∧ bytes = encode i ++ rest)

/-- A few words written out from the encoding tables (R125, R135, R136). -/
def Obligations.SampleWordsDecode : Prop :=
  decode .m6502 [0xA9, 0x42] = .ok (.ldaImm, [0x42]) ∧ decode .m6502 [0x1E, 0xFF, 0x12] = .ok (.aslAbx, [0xFF, 0x12]) ∧
    decode .n6502 [0x6C, 0xFF, 0x03] = .ok (.jmpInd, [0xFF, 0x03]) ∧ decode .m6502 [0x02] = .error (.illegalOpcode 0x02) ∧
    decode .chip8 [0x12, 0x34] = .ok (.jp 0x234, []) ∧ decode .chip8 [0xD0, 0x15] = .ok (.drw 0 1 5, []) ∧
    decode .xochip [0x53, 0x12] = .ok (.saveRange 3 1, []) ∧ decode .chip8 [0x53, 0x12] = .error (.unknownOpcode 0x5312) ∧
    decode .xochip [0xF0, 0x00, 0xAB, 0xCD] = .ok (.ldILong, [0xAB, 0xCD]) ∧
    decode .xochip [0xF3, 0x01] = .ok (.plane 3, []) ∧ decode .xochip [0xF3, 0x02] = .error (.unknownOpcode 0xF302)

/-- Every step keeps the legal states. From the rules: the stack within its depth (R43), low-resolution blocks whole (R55),
`T` naming a row (R191), and, where D37 is followed (log 11), `KW_VALID` in a key wait only (R46). The model's own
choices: memory in the canonical form of its sparse list (log 24), the cells that CHIP8 does not have staying 0 in the
shared grid (log 12), and the state that an architecture does not have staying at its reset values (log 20). -/
def Obligations.InvariantIsKept : Prop :=
  ∀ s t : State, Inv s → step s = .next t → Inv t

/-- The state after power-on is legal for every choice of the instance parameters, and so is the machine's reset state. The
legal states are those of `InvariantIsKept`, three clauses of which are the model's choices (log 12, 20, 24) and one of
which speaks of instances that follow D37 (log 11). -/
def Obligations.InvariantHoldsAtPowerOn : Prop :=
  (∀ c : Config, Inv (State.powerOn c)) ∧ Inv State.reset

/-- There is no terminal state (R328, R440, R462): from every legal state the next step, an instruction or an allowed host
operation, answers a next state. The refused host operations are the model's own (log 14); so are three clauses of the
legal states (log 12, 20, 24), and one speaks of instances that follow D37 (log 11). -/
def Obligations.MachineNeverStops : Prop :=
  ∀ s : State, Inv s → (∀ o ∈ s.hostQueue.head?, o.allowed s.cfg.arch = true) → Safe s

/-- `FAULTLOG` is append-only (R22): no step but `PowerOn` removes or changes a record. -/
def Obligations.FaultLogOnlyGrows : Prop :=
  ∀ s t : State, s.hostQueue.head? ≠ some .powerOn → step s = .next t → s.faultLog <+: t.faultLog

/-- The reads of the host (R70, R73, R74) answer on the architectures of their rows and nowhere else (that they answer none
there is log 14): the whole grid of the architecture, row by row, whatever `HIRES` is, whether `ST` is above 0, and the
pitch, a real number (log 16). -/
def Obligations.ReadsAnswerOnTheirArchitectures : Prop :=
  ∀ s : State,
    (s.cfg.arch.is65 = true → s.getFramebuffer = none ∧ s.getSoundActive = none) ∧
    (s.cfg.arch = .xochip → s.getPitch = some (4000 * (2 : ℝ) ^ (((s.xo.pitch.toNat : ℝ) - 64) / 48))) ∧
    (s.cfg.arch ≠ .xochip → s.getPitch = none) ∧
    (s.cfg.arch.is65 = false →
      let size : Nat × Nat := if s.cfg.arch = .xochip then (128, 64) else (64, 32)
      s.getSoundActive = some (decide (s.c8.st ≠ 0)) ∧
      ∃ rows, s.getFramebuffer = some rows ∧ rows.length = size.2 ∧ (∀ row ∈ rows, row.length = size.1) ∧
        ∀ x y, x < size.1 → y < size.2 → (rows.getD y []).getD x 0 = s.c8.fb.cell x y)
end

