-- ==== Sys2Proof/Laws/Bits.lean ====
section
/-! SUPPORT. What the byte-order and bit-field helpers do: the two halves of a word, and the fields of a CHIP-8 opcode
put together from its fields (30_encoding.md R131). -/

namespace Sys2Proof.Machine

theorem mkWord_toNat (hi lo : Byte) : (mkWord hi lo).toNat = hi.toNat * 256 + lo.toNat := by
  have h := Nat.two_pow_add_eq_or_of_lt lo.isLt hi.toNat
  rw [mkWord, BitVec.toNat_append, Nat.shiftLeft_eq, Nat.mul_comm, ← h]

theorem mkWord_hi_lo (w : Word) : mkWord (hiByte w) (loByte w) = w := by
  apply BitVec.eq_of_toNat_eq
  rw [mkWord_toNat]
  simp [hiByte, loByte, BitVec.extractLsb'_toNat, Nat.shiftRight_eq_div_pow]
  omega

theorem loByte_mkWord (hi lo : Byte) : loByte (mkWord hi lo) = lo := by
  apply BitVec.eq_of_toNat_eq
  simp [loByte, BitVec.extractLsb'_toNat, mkWord_toNat]
  omega

theorem hiByte_mkWord (hi lo : Byte) : hiByte (mkWord hi lo) = hi := by
  apply BitVec.eq_of_toNat_eq
  simp [hiByte, BitVec.extractLsb'_toNat, mkWord_toNat, Nat.shiftRight_eq_div_pow]
  omega

/-! ## Fields of an opcode (R131) -/

theorem opTop_toNat (w : Word) : (opTop w).toNat = w.toNat / 4096 := by
  simp [opTop, BitVec.extractLsb'_toNat, Nat.shiftRight_eq_div_pow]; omega

theorem opX_toNat (w : Word) : (opX w).toNat = w.toNat / 256 % 16 := by
  simp [opX, BitVec.extractLsb'_toNat, Nat.shiftRight_eq_div_pow]

theorem opY_toNat (w : Word) : (opY w).toNat = w.toNat / 16 % 16 := by
  simp [opY, BitVec.extractLsb'_toNat, Nat.shiftRight_eq_div_pow]

theorem opN_toNat (w : Word) : (opN w).toNat = w.toNat % 16 := by
  simp [opN, BitVec.extractLsb'_toNat]

theorem opNN_toNat (w : Word) : (opNN w).toNat = w.toNat % 256 := by
  simp [opNN, BitVec.extractLsb'_toNat]

theorem opNNN_toNat (w : Word) : (opNNN w).toNat = w.toNat % 4096 := by
  simp [opNNN, BitVec.extractLsb'_toNat]

/-- The value of two bit strings put together. -/
theorem toNat_append_mul {m n : Nat} (a : BitVec m) (b : BitVec n) :
    (a ++ b).toNat = a.toNat * 2 ^ n + b.toNat := by
  have h := Nat.two_pow_add_eq_or_of_lt b.isLt a.toNat
  rw [BitVec.toNat_append, Nat.shiftLeft_eq, Nat.mul_comm, ← h]

/-- An opcode put together from its four digits. -/
theorem toNat_digits (t x y n : BitVec 4) :
    (t ++ x ++ y ++ n).toNat = t.toNat * 4096 + x.toNat * 256 + y.toNat * 16 + n.toNat := by
  rw [toNat_append_mul, toNat_append_mul, toNat_append_mul]; omega

/-- An opcode put together from a digit, a register and a byte. -/
theorem toNat_digit_byte (t x : BitVec 4) (nn : Byte) :
    (t ++ x ++ nn).toNat = t.toNat * 4096 + x.toNat * 256 + nn.toNat := by
  rw [toNat_append_mul, toNat_append_mul]; omega

/-- An opcode put together from a digit and an address. -/
theorem toNat_digit_addr (t : BitVec 4) (nnn : BitVec 12) : (t ++ nnn).toNat = t.toNat * 4096 + nnn.toNat :=
  toNat_append_mul t nnn

end Sys2Proof.Machine
end

