-- ==== Sys2Proof/Laws/Memory.lean ====
section
/-! SUPPORT. What the memory operations do, once: a read after a write, the frame of a write, and the canonical form
they keep. No lemma but those about the form needs the form. -/

namespace Sys2Proof.Machine

theorem Mem.read_nil (c : Config) (a : Nat) : Mem.read c [] a = powerOnByte c a := rfl

theorem Mem.read_cons (c : Config) (k : Nat) (v : Byte) (m : Mem) (a : Nat) :
    Mem.read c ((k, v) :: m) a = if k = a then v else Mem.read c m a := rfl

/-- An address that is not listed reads as its power-on byte. -/
theorem Mem.read_of_not_listed (c : Config) (m : Mem) (a : Nat) (h : ∀ cell ∈ m, cell.1 ≠ a) :
    Mem.read c m a = powerOnByte c a := by
  induction m with
  | nil => rfl
  | cons cell rest ih =>
    obtain ⟨k, v⟩ := cell
    rw [Mem.read_cons, if_neg (h (k, v) (by simp)), ih fun q hq => h q (by simp [hq])]

theorem Mem.read_erase_same (c : Config) (m : Mem) (a : Nat) :
    Mem.read c (Mem.erase m a) a = powerOnByte c a :=
  Mem.read_of_not_listed c _ a fun cell h => by simpa using (List.mem_filter.mp h).2

theorem Mem.read_erase_ne (c : Config) (m : Mem) (a b : Nat) (h : b ≠ a) :
    Mem.read c (Mem.erase m a) b = Mem.read c m b := by
  induction m with
  | nil => rfl
  | cons cell rest ih =>
    obtain ⟨k, v⟩ := cell
    by_cases hk : k = a
    · have : Mem.erase ((k, v) :: rest) a = Mem.erase rest a := by simp [Mem.erase, hk]
      rw [this, ih, Mem.read_cons, if_neg (by omega)]
    · have : Mem.erase ((k, v) :: rest) a = (k, v) :: Mem.erase rest a := by simp [Mem.erase, hk]
      rw [this, Mem.read_cons, Mem.read_cons, ih]

theorem Mem.read_insert_ne (c : Config) (m : Mem) (a b : Nat) (v : Byte) (h : b ≠ a) :
    Mem.read c (Mem.insert m a v) b = Mem.read c m b := by
  induction m with
  | nil => simp [Mem.insert, Mem.read_cons, Mem.read_nil, Ne.symm h]
  | cons cell rest ih =>
    obtain ⟨k, w⟩ := cell
    unfold Mem.insert
    split
    · rw [Mem.read_cons, if_neg (Ne.symm h)]
    · rw [Mem.read_cons, Mem.read_cons, ih]

theorem Mem.read_insert_same (c : Config) (m : Mem) (a : Nat) (v : Byte) (h : ∀ cell ∈ m, cell.1 ≠ a) :
    Mem.read c (Mem.insert m a v) a = v := by
  induction m with
  | nil => simp [Mem.insert, Mem.read_cons]
  | cons cell rest ih =>
    obtain ⟨k, w⟩ := cell
    unfold Mem.insert
    split
    · rw [Mem.read_cons, if_pos rfl]
    · rw [Mem.read_cons, if_neg (h (k, w) (by simp)), ih fun q hq => h q (by simp [hq])]

theorem Mem.not_listed_erase (m : Mem) (a : Nat) : ∀ cell ∈ Mem.erase m a, cell.1 ≠ a :=
  fun cell h => by simpa using (List.mem_filter.mp h).2

/-- A read after a write to the same address gives the byte written (20_memory.md R82). -/
theorem Mem.read_write_same (c : Config) (m : Mem) (a : Nat) (v : Byte) :
    Mem.read c (Mem.write c m a v) a = v := by
  unfold Mem.write
  split
  · rename_i h; rw [Mem.read_erase_same, h]
  · exact Mem.read_insert_same c _ a v (Mem.not_listed_erase m a)

/-- A write leaves every other address alone. -/
theorem Mem.read_write_ne (c : Config) (m : Mem) (a b : Nat) (v : Byte) (h : b ≠ a) :
    Mem.read c (Mem.write c m a v) b = Mem.read c m b := by
  unfold Mem.write
  split
  · exact Mem.read_erase_ne c m a b h
  · rw [Mem.read_insert_ne c _ a b v h, Mem.read_erase_ne c m a b h]

theorem Mem.read_write (c : Config) (m : Mem) (a b : Nat) (v : Byte) :
    Mem.read c (Mem.write c m a v) b = if b = a then v else Mem.read c m b := by
  split
  · rename_i h; rw [h, Mem.read_write_same]
  · rename_i h; exact Mem.read_write_ne c m a b v h

/-! ## The canonical form -/

theorem Mem.wf_iff (c : Config) (m : Mem) :
    Mem.wf c m = true ↔
      m.Pairwise (fun p q => p.1 < q.1) ∧
        ∀ cell ∈ m, cell.1 < c.memSize ∧ cell.2 ≠ powerOnByte c cell.1 := by
  simp [Mem.wf]

theorem Mem.wf_nil (c : Config) : Mem.wf c [] = true := by simp [Mem.wf]

theorem Mem.wf_erase (c : Config) (m : Mem) (a : Nat) (h : Mem.wf c m = true) :
    Mem.wf c (Mem.erase m a) = true := by
  rw [Mem.wf_iff] at h ⊢
  exact ⟨h.1.filter _, fun cell hc => h.2 cell (List.mem_filter.mp hc).1⟩

theorem Mem.mem_insert (m : Mem) (a : Nat) (v : Byte) (cell : Host.Cell) :
    cell ∈ Mem.insert m a v ↔ cell = (a, v) ∨ cell ∈ m := by
  induction m with
  | nil => simp [Mem.insert]
  | cons p rest ih =>
    obtain ⟨k, w⟩ := p
    unfold Mem.insert
    split
    · simp
    · rw [List.mem_cons, ih, List.mem_cons]; tauto

theorem Mem.insert_sorted (m : Mem) (a : Nat) (v : Byte) (h : m.Pairwise fun p q => p.1 < q.1)
    (hn : ∀ cell ∈ m, cell.1 ≠ a) : (Mem.insert m a v).Pairwise fun p q => p.1 < q.1 := by
  induction m with
  | nil => simp [Mem.insert]
  | cons p rest ih =>
    obtain ⟨k, w⟩ := p
    rw [List.pairwise_cons] at h
    have hk : k ≠ a := hn (k, w) (by simp)
    unfold Mem.insert
    split
    · rename_i hlt
      refine List.pairwise_cons.mpr ⟨fun q hq => ?_, List.pairwise_cons.mpr h⟩
      rcases List.mem_cons.mp hq with rfl | hq
      · exact hlt
      · exact Nat.lt_trans hlt (h.1 q hq)
    · refine List.pairwise_cons.mpr ⟨fun q hq => ?_, ih h.2 fun q hq => hn q (by simp [hq])⟩
      rcases (Mem.mem_insert rest a v q).mp hq with rfl | hq
      · show k < a; omega
      · exact h.1 q hq

/-- A write inside the memory keeps the canonical form. -/
theorem Mem.wf_write (c : Config) (m : Mem) (a : Nat) (v : Byte) (ha : a < c.memSize)
    (h : Mem.wf c m = true) : Mem.wf c (Mem.write c m a v) = true := by
  have he := Mem.wf_erase c m a h
  unfold Mem.write
  split
  · exact he
  · rename_i hv
    rw [Mem.wf_iff] at he ⊢
    refine ⟨Mem.insert_sorted _ a v he.1 (Mem.not_listed_erase m a), fun cell hc => ?_⟩
    rcases (Mem.mem_insert _ a v cell).mp hc with rfl | hc
    · exact ⟨ha, hv⟩
    · exact he.2 cell hc

end Sys2Proof.Machine
end

