-- ==== Sys2Proof/Laws/State.lean ====
section
/-! SUPPORT. One lemma per field of `State` per update, so that no proof unfolds a record update, and the value a read
sees after an update that leaves memory alone. -/

namespace Sys2Proof.Machine

/-! ### `upd65` -/

@[simp] theorem State.upd65_cfg (s : State) (f : Cpu65 → Cpu65) : (s.upd65 f).cfg = s.cfg := rfl
@[simp] theorem State.upd65_mem (s : State) (f : Cpu65 → Cpu65) : (s.upd65 f).mem = s.mem := rfl
@[simp] theorem State.upd65_m65 (s : State) (f : Cpu65 → Cpu65) : (s.upd65 f).m65 = f s.m65 := rfl
@[simp] theorem State.upd65_c8 (s : State) (f : Cpu65 → Cpu65) : (s.upd65 f).c8 = s.c8 := rfl
@[simp] theorem State.upd65_xo (s : State) (f : Cpu65 → Cpu65) : (s.upd65 f).xo = s.xo := rfl
@[simp] theorem State.upd65_faultLog (s : State) (f : Cpu65 → Cpu65) : (s.upd65 f).faultLog = s.faultLog := rfl
@[simp] theorem State.upd65_busTrace (s : State) (f : Cpu65 → Cpu65) : (s.upd65 f).busTrace = s.busTrace := rfl
@[simp] theorem State.upd65_hostQueue (s : State) (f : Cpu65 → Cpu65) : (s.upd65 f).hostQueue = s.hostQueue := rfl
@[simp] theorem State.upd65_randDraws (s : State) (f : Cpu65 → Cpu65) : (s.upd65 f).randDraws = s.randDraws := rfl

/-! ### `updC8` -/

@[simp] theorem State.updC8_cfg (s : State) (f : CpuC8 → CpuC8) : (s.updC8 f).cfg = s.cfg := rfl
@[simp] theorem State.updC8_mem (s : State) (f : CpuC8 → CpuC8) : (s.updC8 f).mem = s.mem := rfl
@[simp] theorem State.updC8_m65 (s : State) (f : CpuC8 → CpuC8) : (s.updC8 f).m65 = s.m65 := rfl
@[simp] theorem State.updC8_c8 (s : State) (f : CpuC8 → CpuC8) : (s.updC8 f).c8 = f s.c8 := rfl
@[simp] theorem State.updC8_xo (s : State) (f : CpuC8 → CpuC8) : (s.updC8 f).xo = s.xo := rfl
@[simp] theorem State.updC8_faultLog (s : State) (f : CpuC8 → CpuC8) : (s.updC8 f).faultLog = s.faultLog := rfl
@[simp] theorem State.updC8_busTrace (s : State) (f : CpuC8 → CpuC8) : (s.updC8 f).busTrace = s.busTrace := rfl
@[simp] theorem State.updC8_hostQueue (s : State) (f : CpuC8 → CpuC8) : (s.updC8 f).hostQueue = s.hostQueue := rfl
@[simp] theorem State.updC8_randDraws (s : State) (f : CpuC8 → CpuC8) : (s.updC8 f).randDraws = s.randDraws := rfl

/-! ### `updXo` -/

@[simp] theorem State.updXo_cfg (s : State) (f : XoState → XoState) : (s.updXo f).cfg = s.cfg := rfl
@[simp] theorem State.updXo_mem (s : State) (f : XoState → XoState) : (s.updXo f).mem = s.mem := rfl
@[simp] theorem State.updXo_m65 (s : State) (f : XoState → XoState) : (s.updXo f).m65 = s.m65 := rfl
@[simp] theorem State.updXo_c8 (s : State) (f : XoState → XoState) : (s.updXo f).c8 = s.c8 := rfl
@[simp] theorem State.updXo_xo (s : State) (f : XoState → XoState) : (s.updXo f).xo = f s.xo := rfl
@[simp] theorem State.updXo_faultLog (s : State) (f : XoState → XoState) : (s.updXo f).faultLog = s.faultLog := rfl
@[simp] theorem State.updXo_busTrace (s : State) (f : XoState → XoState) : (s.updXo f).busTrace = s.busTrace := rfl
@[simp] theorem State.updXo_hostQueue (s : State) (f : XoState → XoState) : (s.updXo f).hostQueue = s.hostQueue := rfl
@[simp] theorem State.updXo_randDraws (s : State) (f : XoState → XoState) : (s.updXo f).randDraws = s.randDraws := rfl

/-! ### `note` -/

@[simp] theorem State.note_cfg (s : State) (o : BusOp) : (s.note o).cfg = s.cfg := rfl
@[simp] theorem State.note_mem (s : State) (o : BusOp) : (s.note o).mem = s.mem := rfl
@[simp] theorem State.note_m65 (s : State) (o : BusOp) : (s.note o).m65 = s.m65 := rfl
@[simp] theorem State.note_c8 (s : State) (o : BusOp) : (s.note o).c8 = s.c8 := rfl
@[simp] theorem State.note_xo (s : State) (o : BusOp) : (s.note o).xo = s.xo := rfl
@[simp] theorem State.note_faultLog (s : State) (o : BusOp) : (s.note o).faultLog = s.faultLog := rfl
@[simp] theorem State.note_busTrace (s : State) (o : BusOp) : (s.note o).busTrace = s.busTrace ++ [o] := rfl
@[simp] theorem State.note_hostQueue (s : State) (o : BusOp) : (s.note o).hostQueue = s.hostQueue := rfl
@[simp] theorem State.note_randDraws (s : State) (o : BusOp) : (s.note o).randDraws = s.randDraws := rfl

/-! ### `raise` -/

@[simp] theorem State.raise_cfg (s : State) (k : FaultKind) (i : Option Nat) : (s.raise k i).cfg = s.cfg := rfl
@[simp] theorem State.raise_mem (s : State) (k : FaultKind) (i : Option Nat) : (s.raise k i).mem = s.mem := rfl
@[simp] theorem State.raise_m65 (s : State) (k : FaultKind) (i : Option Nat) : (s.raise k i).m65 = s.m65 := rfl
@[simp] theorem State.raise_c8 (s : State) (k : FaultKind) (i : Option Nat) : (s.raise k i).c8 = s.c8 := rfl
@[simp] theorem State.raise_xo (s : State) (k : FaultKind) (i : Option Nat) : (s.raise k i).xo = s.xo := rfl
@[simp] theorem State.raise_faultLog (s : State) (k : FaultKind) (i : Option Nat) : (s.raise k i).faultLog = s.faultLog ++ [s.faultRecord k i] := rfl
@[simp] theorem State.raise_busTrace (s : State) (k : FaultKind) (i : Option Nat) : (s.raise k i).busTrace = s.busTrace := rfl
@[simp] theorem State.raise_hostQueue (s : State) (k : FaultKind) (i : Option Nat) : (s.raise k i).hostQueue = s.hostQueue := rfl
@[simp] theorem State.raise_randDraws (s : State) (k : FaultKind) (i : Option Nat) : (s.raise k i).randDraws = s.randDraws := rfl

/-! ### `setReg` -/

@[simp] theorem State.setReg_cfg (s : State) (x : BitVec 4) (b : Byte) : (s.setReg x b).cfg = s.cfg := rfl
@[simp] theorem State.setReg_mem (s : State) (x : BitVec 4) (b : Byte) : (s.setReg x b).mem = s.mem := rfl
@[simp] theorem State.setReg_m65 (s : State) (x : BitVec 4) (b : Byte) : (s.setReg x b).m65 = s.m65 := rfl
@[simp] theorem State.setReg_c8 (s : State) (x : BitVec 4) (b : Byte) : (s.setReg x b).c8 = { s.c8 with v := s.c8.v.set x.toNat b x.isLt } := rfl
@[simp] theorem State.setReg_xo (s : State) (x : BitVec 4) (b : Byte) : (s.setReg x b).xo = s.xo := rfl
@[simp] theorem State.setReg_faultLog (s : State) (x : BitVec 4) (b : Byte) : (s.setReg x b).faultLog = s.faultLog := rfl
@[simp] theorem State.setReg_busTrace (s : State) (x : BitVec 4) (b : Byte) : (s.setReg x b).busTrace = s.busTrace := rfl
@[simp] theorem State.setReg_hostQueue (s : State) (x : BitVec 4) (b : Byte) : (s.setReg x b).hostQueue = s.hostQueue := rfl
@[simp] theorem State.setReg_randDraws (s : State) (x : BitVec 4) (b : Byte) : (s.setReg x b).randDraws = s.randDraws := rfl

/-! ### `setPc` -/

@[simp] theorem State.setPc_cfg (s : State) (w : Word) : (s.setPc w).cfg = s.cfg := rfl
@[simp] theorem State.setPc_mem (s : State) (w : Word) : (s.setPc w).mem = s.mem := rfl
@[simp] theorem State.setPc_m65 (s : State) (w : Word) : (s.setPc w).m65 = s.m65 := rfl
@[simp] theorem State.setPc_c8 (s : State) (w : Word) : (s.setPc w).c8 = { s.c8 with pc := w } := rfl
@[simp] theorem State.setPc_xo (s : State) (w : Word) : (s.setPc w).xo = s.xo := rfl
@[simp] theorem State.setPc_faultLog (s : State) (w : Word) : (s.setPc w).faultLog = s.faultLog := rfl
@[simp] theorem State.setPc_busTrace (s : State) (w : Word) : (s.setPc w).busTrace = s.busTrace := rfl
@[simp] theorem State.setPc_hostQueue (s : State) (w : Word) : (s.setPc w).hostQueue = s.hostQueue := rfl
@[simp] theorem State.setPc_randDraws (s : State) (w : Word) : (s.setPc w).randDraws = s.randDraws := rfl

/-! ### `setI` -/

@[simp] theorem State.setI_cfg (s : State) (w : Word) : (s.setI w).cfg = s.cfg := rfl
@[simp] theorem State.setI_mem (s : State) (w : Word) : (s.setI w).mem = s.mem := rfl
@[simp] theorem State.setI_m65 (s : State) (w : Word) : (s.setI w).m65 = s.m65 := rfl
@[simp] theorem State.setI_c8 (s : State) (w : Word) : (s.setI w).c8 = { s.c8 with i := w } := rfl
@[simp] theorem State.setI_xo (s : State) (w : Word) : (s.setI w).xo = s.xo := rfl
@[simp] theorem State.setI_faultLog (s : State) (w : Word) : (s.setI w).faultLog = s.faultLog := rfl
@[simp] theorem State.setI_busTrace (s : State) (w : Word) : (s.setI w).busTrace = s.busTrace := rfl
@[simp] theorem State.setI_hostQueue (s : State) (w : Word) : (s.setI w).hostQueue = s.hostQueue := rfl
@[simp] theorem State.setI_randDraws (s : State) (w : Word) : (s.setI w).randDraws = s.randDraws := rfl

/-! ### `setFb` -/

@[simp] theorem State.setFb_cfg (s : State) (fb : FrameBuf) : (s.setFb fb).cfg = s.cfg := rfl
@[simp] theorem State.setFb_mem (s : State) (fb : FrameBuf) : (s.setFb fb).mem = s.mem := rfl
@[simp] theorem State.setFb_m65 (s : State) (fb : FrameBuf) : (s.setFb fb).m65 = s.m65 := rfl
@[simp] theorem State.setFb_c8 (s : State) (fb : FrameBuf) : (s.setFb fb).c8 = { s.c8 with fb := fb } := rfl
@[simp] theorem State.setFb_xo (s : State) (fb : FrameBuf) : (s.setFb fb).xo = s.xo := rfl
@[simp] theorem State.setFb_faultLog (s : State) (fb : FrameBuf) : (s.setFb fb).faultLog = s.faultLog := rfl
@[simp] theorem State.setFb_busTrace (s : State) (fb : FrameBuf) : (s.setFb fb).busTrace = s.busTrace := rfl
@[simp] theorem State.setFb_hostQueue (s : State) (fb : FrameBuf) : (s.setFb fb).hostQueue = s.hostQueue := rfl
@[simp] theorem State.setFb_randDraws (s : State) (fb : FrameBuf) : (s.setFb fb).randDraws = s.randDraws := rfl

/-! ### `poke` -/

@[simp] theorem State.poke_cfg (s : State) (a : Nat) (v : Byte) : (s.poke a v).cfg = s.cfg := rfl
@[simp] theorem State.poke_mem (s : State) (a : Nat) (v : Byte) : (s.poke a v).mem = Mem.write s.cfg s.mem a v := rfl
@[simp] theorem State.poke_m65 (s : State) (a : Nat) (v : Byte) : (s.poke a v).m65 = s.m65 := rfl
@[simp] theorem State.poke_c8 (s : State) (a : Nat) (v : Byte) : (s.poke a v).c8 = s.c8 := rfl
@[simp] theorem State.poke_xo (s : State) (a : Nat) (v : Byte) : (s.poke a v).xo = s.xo := rfl
@[simp] theorem State.poke_faultLog (s : State) (a : Nat) (v : Byte) : (s.poke a v).faultLog = s.faultLog := rfl
@[simp] theorem State.poke_busTrace (s : State) (a : Nat) (v : Byte) : (s.poke a v).busTrace = s.busTrace := rfl
@[simp] theorem State.poke_hostQueue (s : State) (a : Nat) (v : Byte) : (s.poke a v).hostQueue = s.hostQueue := rfl
@[simp] theorem State.poke_randDraws (s : State) (a : Nat) (v : Byte) : (s.poke a v).randDraws = s.randDraws := rfl

/-! ### `afterRead` -/

@[simp] theorem State.afterRead_cfg (s : State) (a : Nat) : (s.afterRead a).cfg = s.cfg := by unfold State.afterRead; split <;> rfl
@[simp] theorem State.afterRead_mem (s : State) (a : Nat) : (s.afterRead a).mem = s.mem := by unfold State.afterRead; split <;> rfl
@[simp] theorem State.afterRead_m65 (s : State) (a : Nat) : (s.afterRead a).m65 = s.m65 := by unfold State.afterRead; split <;> rfl
@[simp] theorem State.afterRead_c8 (s : State) (a : Nat) : (s.afterRead a).c8 = s.c8 := by unfold State.afterRead; split <;> rfl
@[simp] theorem State.afterRead_xo (s : State) (a : Nat) : (s.afterRead a).xo = s.xo := by unfold State.afterRead; split <;> rfl
@[simp] theorem State.afterRead_hostQueue (s : State) (a : Nat) : (s.afterRead a).hostQueue = s.hostQueue := by unfold State.afterRead; split <;> rfl
@[simp] theorem State.afterRead_randDraws (s : State) (a : Nat) : (s.afterRead a).randDraws = s.randDraws := by unfold State.afterRead; split <;> rfl

/-! ### `afterRead2` -/

@[simp] theorem State.afterRead2_cfg (s : State) (a : Nat) : (s.afterRead2 a).cfg = s.cfg := by simp [State.afterRead2]
@[simp] theorem State.afterRead2_mem (s : State) (a : Nat) : (s.afterRead2 a).mem = s.mem := by simp [State.afterRead2]
@[simp] theorem State.afterRead2_m65 (s : State) (a : Nat) : (s.afterRead2 a).m65 = s.m65 := by simp [State.afterRead2]
@[simp] theorem State.afterRead2_c8 (s : State) (a : Nat) : (s.afterRead2 a).c8 = s.c8 := by simp [State.afterRead2]
@[simp] theorem State.afterRead2_xo (s : State) (a : Nat) : (s.afterRead2 a).xo = s.xo := by simp [State.afterRead2]
@[simp] theorem State.afterRead2_hostQueue (s : State) (a : Nat) : (s.afterRead2 a).hostQueue = s.hostQueue := by simp [State.afterRead2]
@[simp] theorem State.afterRead2_randDraws (s : State) (a : Nat) : (s.afterRead2 a).randDraws = s.randDraws := by simp [State.afterRead2]

/-! ### `memWrite` -/

@[simp] theorem State.memWrite_cfg (s : State) (a : Nat) (v : Byte) : (s.memWrite a v).cfg = s.cfg := by unfold State.memWrite; split <;> rfl
@[simp] theorem State.memWrite_m65 (s : State) (a : Nat) (v : Byte) : (s.memWrite a v).m65 = s.m65 := by unfold State.memWrite; split <;> rfl
@[simp] theorem State.memWrite_c8 (s : State) (a : Nat) (v : Byte) : (s.memWrite a v).c8 = s.c8 := by unfold State.memWrite; split <;> rfl
@[simp] theorem State.memWrite_xo (s : State) (a : Nat) (v : Byte) : (s.memWrite a v).xo = s.xo := by unfold State.memWrite; split <;> rfl
@[simp] theorem State.memWrite_hostQueue (s : State) (a : Nat) (v : Byte) : (s.memWrite a v).hostQueue = s.hostQueue := by unfold State.memWrite; split <;> rfl
@[simp] theorem State.memWrite_randDraws (s : State) (a : Nat) (v : Byte) : (s.memWrite a v).randDraws = s.randDraws := by unfold State.memWrite; split <;> rfl

/-! ### `readRow` -/

@[simp] theorem State.readRow_cfg (s : State) (a : Word) (f : Byte → Cpu65 → Cpu65) : (s.readRow a f).cfg = s.cfg := by simp [State.readRow]
@[simp] theorem State.readRow_mem (s : State) (a : Word) (f : Byte → Cpu65 → Cpu65) : (s.readRow a f).mem = s.mem := by simp [State.readRow]
theorem State.readRow_m65 (s : State) (a : Word) (f : Byte → Cpu65 → Cpu65) : (s.readRow a f).m65 = f (s.readVal a.toNat) s.m65 := by simp [State.readRow]
@[simp] theorem State.readRow_c8 (s : State) (a : Word) (f : Byte → Cpu65 → Cpu65) : (s.readRow a f).c8 = s.c8 := by simp [State.readRow]
@[simp] theorem State.readRow_xo (s : State) (a : Word) (f : Byte → Cpu65 → Cpu65) : (s.readRow a f).xo = s.xo := by simp [State.readRow]
@[simp] theorem State.readRow_hostQueue (s : State) (a : Word) (f : Byte → Cpu65 → Cpu65) : (s.readRow a f).hostQueue = s.hostQueue := by simp [State.readRow]
@[simp] theorem State.readRow_randDraws (s : State) (a : Word) (f : Byte → Cpu65 → Cpu65) : (s.readRow a f).randDraws = s.randDraws := by simp [State.readRow]

/-! ### `writeRow` -/

@[simp] theorem State.writeRow_cfg (s : State) (a : Word) (v : Byte) (f : Cpu65 → Cpu65) : (s.writeRow a v f).cfg = s.cfg := by simp [State.writeRow]
@[simp] theorem State.writeRow_m65 (s : State) (a : Word) (v : Byte) (f : Cpu65 → Cpu65) : (s.writeRow a v f).m65 = f s.m65 := by simp [State.writeRow]
@[simp] theorem State.writeRow_c8 (s : State) (a : Word) (v : Byte) (f : Cpu65 → Cpu65) : (s.writeRow a v f).c8 = s.c8 := by simp [State.writeRow]
@[simp] theorem State.writeRow_xo (s : State) (a : Word) (v : Byte) (f : Cpu65 → Cpu65) : (s.writeRow a v f).xo = s.xo := by simp [State.writeRow]
@[simp] theorem State.writeRow_hostQueue (s : State) (a : Word) (v : Byte) (f : Cpu65 → Cpu65) : (s.writeRow a v f).hostQueue = s.hostQueue := by simp [State.writeRow]
@[simp] theorem State.writeRow_randDraws (s : State) (a : Word) (v : Byte) (f : Cpu65 → Cpu65) : (s.writeRow a v f).randDraws = s.randDraws := by simp [State.writeRow]

/-! ### The bus: trace, log and memory -/

theorem State.afterRead_of_lt (s : State) (a : Nat) (h : a < s.cfg.memSize) :
    s.afterRead a = s.note (.read a (s.peek a) false) := by simp [State.afterRead, h]

theorem State.afterRead_of_ge (s : State) (a : Nat) (h : ¬ a < s.cfg.memSize) :
    s.afterRead a = (s.note (.read a 0 true)).raise .outOfBoundsRead (some a) := by simp [State.afterRead, h]

theorem State.readVal_of_lt (s : State) (a : Nat) (h : a < s.cfg.memSize) : s.readVal a = s.peek a := by
  simp [State.readVal, h]

theorem State.readVal_of_ge (s : State) (a : Nat) (h : ¬ a < s.cfg.memSize) : s.readVal a = 0 := by
  simp [State.readVal, h]

theorem State.memWrite_of_lt (s : State) (a : Nat) (v : Byte) (h : a < s.cfg.memSize) :
    s.memWrite a v = { s.note (.write a v false) with mem := Mem.write s.cfg s.mem a v } := by
  simp [State.memWrite, h]

theorem State.memWrite_of_ge (s : State) (a : Nat) (v : Byte) (h : ¬ a < s.cfg.memSize) :
    s.memWrite a v = (s.note (.write a v true)).raise .outOfBoundsWrite (some a) := by
  simp [State.memWrite, h]

/-- One bus read is one entry of the record of bus operations. -/
@[simp] theorem State.afterRead_busTrace (s : State) (a : Nat) :
    (s.afterRead a).busTrace =
      s.busTrace ++ [.read a (s.readVal a) (!decide (a < s.cfg.memSize))] := by
  by_cases h : a < s.cfg.memSize <;> simp [State.afterRead, State.readVal, h]

@[simp] theorem State.memWrite_busTrace (s : State) (a : Nat) (v : Byte) :
    (s.memWrite a v).busTrace = s.busTrace ++ [.write a v (!decide (a < s.cfg.memSize))] := by
  by_cases h : a < s.cfg.memSize <;> simp [State.memWrite, h]

/-- One out-of-range read appends exactly one record (20_memory.md R84). -/
theorem State.afterRead_faultLog (s : State) (a : Nat) :
    (s.afterRead a).faultLog =
      if a < s.cfg.memSize then s.faultLog else s.faultLog ++ [s.faultRecord .outOfBoundsRead (some a)] := by
  by_cases h : a < s.cfg.memSize
  · simp [State.afterRead, h]
  · simp [State.afterRead, h]; rfl

theorem State.memWrite_faultLog (s : State) (a : Nat) (v : Byte) :
    (s.memWrite a v).faultLog =
      if a < s.cfg.memSize then s.faultLog else s.faultLog ++ [s.faultRecord .outOfBoundsWrite (some a)] := by
  by_cases h : a < s.cfg.memSize
  · simp [State.memWrite, h]
  · simp [State.memWrite, h]; rfl

theorem State.memWrite_mem (s : State) (a : Nat) (v : Byte) :
    (s.memWrite a v).mem = if a < s.cfg.memSize then Mem.write s.cfg s.mem a v else s.mem := by
  by_cases h : a < s.cfg.memSize <;> simp [State.memWrite, h]

/-- What a byte of memory reads as depends on the configuration and the memory alone. -/
theorem State.peek_congr (s t : State) (hc : t.cfg = s.cfg) (hm : t.mem = s.mem) (a : Nat) :
    t.peek a = s.peek a := by simp [State.peek, hc, hm]

theorem State.readVal_congr (s t : State) (hc : t.cfg = s.cfg) (hm : t.mem = s.mem) (a : Nat) :
    t.readVal a = s.readVal a := by simp [State.readVal, State.peek, hc, hm]

@[simp] theorem State.peek_upd65 (s : State) (f : Cpu65 → Cpu65) (a : Nat) : (s.upd65 f).peek a = s.peek a :=
  State.peek_congr _ _ (by simp) (by simp) a
@[simp] theorem State.readVal_upd65 (s : State) (f : Cpu65 → Cpu65) (a : Nat) : (s.upd65 f).readVal a = s.readVal a :=
  State.readVal_congr _ _ (by simp) (by simp) a
@[simp] theorem State.peek_updC8 (s : State) (f : CpuC8 → CpuC8) (a : Nat) : (s.updC8 f).peek a = s.peek a :=
  State.peek_congr _ _ (by simp) (by simp) a
@[simp] theorem State.readVal_updC8 (s : State) (f : CpuC8 → CpuC8) (a : Nat) : (s.updC8 f).readVal a = s.readVal a :=
  State.readVal_congr _ _ (by simp) (by simp) a
@[simp] theorem State.peek_updXo (s : State) (f : XoState → XoState) (a : Nat) : (s.updXo f).peek a = s.peek a :=
  State.peek_congr _ _ (by simp) (by simp) a
@[simp] theorem State.readVal_updXo (s : State) (f : XoState → XoState) (a : Nat) : (s.updXo f).readVal a = s.readVal a :=
  State.readVal_congr _ _ (by simp) (by simp) a
@[simp] theorem State.peek_note (s : State) (o : BusOp) (a : Nat) : (s.note o).peek a = s.peek a :=
  State.peek_congr _ _ (by simp) (by simp) a
@[simp] theorem State.readVal_note (s : State) (o : BusOp) (a : Nat) : (s.note o).readVal a = s.readVal a :=
  State.readVal_congr _ _ (by simp) (by simp) a
@[simp] theorem State.peek_raise (s : State) (k : FaultKind) (i : Option Nat) (a : Nat) : (s.raise k i).peek a = s.peek a :=
  State.peek_congr _ _ (by simp) (by simp) a
@[simp] theorem State.readVal_raise (s : State) (k : FaultKind) (i : Option Nat) (a : Nat) : (s.raise k i).readVal a = s.readVal a :=
  State.readVal_congr _ _ (by simp) (by simp) a
@[simp] theorem State.peek_setReg (s : State) (x : BitVec 4) (b : Byte) (a : Nat) : (s.setReg x b).peek a = s.peek a :=
  State.peek_congr _ _ (by simp) (by simp) a
@[simp] theorem State.readVal_setReg (s : State) (x : BitVec 4) (b : Byte) (a : Nat) : (s.setReg x b).readVal a = s.readVal a :=
  State.readVal_congr _ _ (by simp) (by simp) a
@[simp] theorem State.peek_setPc (s : State) (w : Word) (a : Nat) : (s.setPc w).peek a = s.peek a :=
  State.peek_congr _ _ (by simp) (by simp) a
@[simp] theorem State.readVal_setPc (s : State) (w : Word) (a : Nat) : (s.setPc w).readVal a = s.readVal a :=
  State.readVal_congr _ _ (by simp) (by simp) a
@[simp] theorem State.peek_setI (s : State) (w : Word) (a : Nat) : (s.setI w).peek a = s.peek a :=
  State.peek_congr _ _ (by simp) (by simp) a
@[simp] theorem State.readVal_setI (s : State) (w : Word) (a : Nat) : (s.setI w).readVal a = s.readVal a :=
  State.readVal_congr _ _ (by simp) (by simp) a
@[simp] theorem State.peek_setFb (s : State) (fb : FrameBuf) (a : Nat) : (s.setFb fb).peek a = s.peek a :=
  State.peek_congr _ _ (by simp) (by simp) a
@[simp] theorem State.readVal_setFb (s : State) (fb : FrameBuf) (a : Nat) : (s.setFb fb).readVal a = s.readVal a :=
  State.readVal_congr _ _ (by simp) (by simp) a
@[simp] theorem State.peek_afterRead (s : State) (b : Nat) (a : Nat) : (s.afterRead b).peek a = s.peek a :=
  State.peek_congr _ _ (by simp) (by simp) a
@[simp] theorem State.readVal_afterRead (s : State) (b : Nat) (a : Nat) : (s.afterRead b).readVal a = s.readVal a :=
  State.readVal_congr _ _ (by simp) (by simp) a
@[simp] theorem State.peek_readRow (s : State) (b : Word) (f : Byte → Cpu65 → Cpu65) (a : Nat) : (s.readRow b f).peek a = s.peek a :=
  State.peek_congr _ _ (by simp) (by simp) a
@[simp] theorem State.readVal_readRow (s : State) (b : Word) (f : Byte → Cpu65 → Cpu65) (a : Nat) : (s.readRow b f).readVal a = s.readVal a :=
  State.readVal_congr _ _ (by simp) (by simp) a

/-- A byte of memory after a bus write (20_memory.md R82). -/
theorem State.peek_memWrite (s : State) (a b : Nat) (v : Byte) :
    (s.memWrite a v).peek b = if b = a ∧ a < s.cfg.memSize then v else s.peek b := by
  by_cases h : a < s.cfg.memSize
  · by_cases hb : b = a <;> simp [State.peek, State.memWrite_mem, h, hb, Mem.read_write]
  · simp [State.peek, State.memWrite_mem, h]

theorem State.peek_writeRow (s : State) (a : Word) (v : Byte) (f : Cpu65 → Cpu65) (b : Nat) :
    (s.writeRow a v f).peek b = (s.memWrite a.toNat v).peek b := by simp [State.writeRow]

/-! ### The canonical form of memory is kept by every operation that writes it -/

theorem State.memWrite_wf (s : State) (a : Nat) (v : Byte) (h : Mem.wf s.cfg s.mem = true) :
    Mem.wf s.cfg (s.memWrite a v).mem = true := by
  by_cases ha : a < s.cfg.memSize
  · rw [State.memWrite_of_lt s a v ha]; exact Mem.wf_write _ _ _ _ ha h
  · rw [State.memWrite_of_ge s a v ha]; exact h

theorem State.storeRegs_wf (l : List (BitVec 4)) : ∀ (s : State) (a : Nat), Mem.wf s.cfg s.mem = true →
    Mem.wf s.cfg (s.storeRegs a l).mem = true := by
  induction l with
  | nil => intro s a h; exact h
  | cons r rest ih =>
    intro s a h
    simpa [State.storeRegs] using ih (s.memWrite a (s.reg r)) (a + 1) (by simpa using State.memWrite_wf s a (s.reg r) h)

theorem State.writeBytes_wf (l : List Byte) : ∀ (s : State) (a : Nat), Mem.wf s.cfg s.mem = true →
    Mem.wf s.cfg (s.writeBytes a l).mem = true := by
  induction l with
  | nil => intro s a h; exact h
  | cons b rest ih =>
    intro s a h
    simpa [State.writeBytes] using ih (s.memWrite a b) (a + 1) (by simpa using State.memWrite_wf s a b h)

theorem State.reset_wf : Mem.wf State.reset.cfg State.reset.mem = true := Mem.wf_nil _

end Sys2Proof.Machine
end

