-- ==== Sys2Proof/Laws/C8.lean ====
section
/-! SUPPORT. What the shared operations of the CHIP-8 family do, once: registers, register blocks in memory, skips, the
fetch of a macro-step, and the reports a run of reads or writes appends to `FAULTLOG`. -/

namespace Sys2Proof.Machine

/-! ## Registers -/

theorem State.reg_congr (s t : State) (h : t.c8.v = s.c8.v) (x : BitVec 4) : t.reg x = s.reg x := by
  simp only [State.reg, h]

/-- A register after a register write. -/
theorem State.reg_setReg (s : State) (x y : BitVec 4) (b : Byte) :
    (s.setReg x b).reg y = if y = x then b else s.reg y := by
  unfold State.reg
  simp only [State.setReg_c8, Vector.getElem_set]
  by_cases h : x.toNat = y.toNat
  · rw [if_pos h, if_pos (BitVec.eq_of_toNat_eq h.symm)]
  · rw [if_neg h, if_neg fun e => h (by rw [e])]

@[simp] theorem State.reg_setReg_same (s : State) (x : BitVec 4) (b : Byte) : (s.setReg x b).reg x = b := by
  simp [State.reg_setReg]

theorem State.reg_setReg_ne (s : State) {x y : BitVec 4} (h : y ≠ x) (b : Byte) :
    (s.setReg x b).reg y = s.reg y := by simp [State.reg_setReg, h]

@[simp] theorem State.reg_setPc (s : State) (w : Word) (x : BitVec 4) : (s.setPc w).reg x = s.reg x := rfl
@[simp] theorem State.reg_setI (s : State) (w : Word) (x : BitVec 4) : (s.setI w).reg x = s.reg x := rfl
@[simp] theorem State.reg_setFb (s : State) (fb : FrameBuf) (x : BitVec 4) : (s.setFb fb).reg x = s.reg x := rfl
@[simp] theorem State.reg_updXo (s : State) (f : XoState → XoState) (x : BitVec 4) : (s.updXo f).reg x = s.reg x := rfl
@[simp] theorem State.reg_afterRead (s : State) (a : Nat) (x : BitVec 4) : (s.afterRead a).reg x = s.reg x :=
  State.reg_congr _ _ (by simp) x
@[simp] theorem State.reg_afterRead2 (s : State) (a : Nat) (x : BitVec 4) : (s.afterRead2 a).reg x = s.reg x :=
  State.reg_congr _ _ (by simp) x
@[simp] theorem State.reg_memWrite (s : State) (a : Nat) (v : Byte) (x : BitVec 4) : (s.memWrite a v).reg x = s.reg x :=
  State.reg_congr _ _ (by simp) x

/-- The `VF` rule (46_c8_base.md R361): the flag is written last, so it wins when the destination is `VF`. -/
theorem State.reg_setWithFlag (s : State) (x y : BitVec 4) (r f : Byte) :
    (s.setWithFlag x r f).reg y = if y = 0xF then f else if y = x then r else s.reg y := by
  simp only [State.setWithFlag, State.reg_setReg]

/-! ## What an operation of the CHIP-8 family may differ in -/

theorem onlyC8_iff (s t : State) :
    OnlyC8 s t ↔ t.cfg = s.cfg ∧ t.m65 = s.m65 ∧ t.hostQueue = s.hostQueue := by
  obtain ⟨⟩ := s
  obtain ⟨⟩ := t
  simp [OnlyC8]

theorem OnlyC8.refl (s : State) : OnlyC8 s s := by simp [onlyC8_iff]

theorem OnlyC8.trans {s t u : State} (h : OnlyC8 s t) (h' : OnlyC8 t u) : OnlyC8 s u := by
  rw [onlyC8_iff] at *
  simp_all

/-! ## Register blocks in memory (45_c8_engine.md R327) -/

/-- Storing registers changes memory, the fault log and the record of bus operations, and nothing else. -/
theorem State.storeRegs_same (s : State) (a : Nat) (rs : List (BitVec 4)) :
    (s.storeRegs a rs).cfg = s.cfg ∧ (s.storeRegs a rs).m65 = s.m65 ∧ (s.storeRegs a rs).c8 = s.c8 ∧
      (s.storeRegs a rs).xo = s.xo ∧ (s.storeRegs a rs).hostQueue = s.hostQueue ∧
      (s.storeRegs a rs).randDraws = s.randDraws := by
  induction rs generalizing s a with
  | nil => simp [State.storeRegs]
  | cons r rest ih =>
    have h := ih (s.memWrite a (s.reg r)) (a + 1)
    simpa [State.storeRegs] using h

/-- A byte of memory after registers are stored from address `a`. -/
theorem State.peek_storeRegs (s : State) (a : Nat) (rs : List (BitVec 4)) (b : Nat) :
    (s.storeRegs a rs).peek b =
      if a ≤ b ∧ b < a + rs.length ∧ b < s.cfg.memSize then s.reg (rs.getD (b - a) 0) else s.peek b := by
  induction rs generalizing s a with
  | nil => simp [State.storeRegs]; omega
  | cons r rest ih =>
    rw [State.storeRegs, ih]
    simp only [State.memWrite_cfg, State.reg_memWrite, State.peek_memWrite, List.length_cons]
    by_cases hb : b = a
    · subst hb
      have h1 : ¬ (b + 1 ≤ b ∧ b < b + 1 + rest.length ∧ b < s.cfg.memSize) := by omega
      rw [if_neg h1]
      by_cases hm : b < s.cfg.memSize
      · simp [hm]
      · simp [hm]
    · by_cases h : a + 1 ≤ b ∧ b < a + 1 + rest.length ∧ b < s.cfg.memSize
      · have h2 : a ≤ b ∧ b < a + (rest.length + 1) ∧ b < s.cfg.memSize := by omega
        have h3 : b - a = (b - (a + 1)) + 1 := by omega
        rw [if_pos h, if_pos h2, h3, List.getD_cons_succ]
      · have h2 : ¬ (a ≤ b ∧ b < a + (rest.length + 1) ∧ b < s.cfg.memSize) := by omega
        rw [if_neg h, if_neg h2]
        simp [hb]

/-- Loading registers changes `V`, the fault log and the record of bus operations, and nothing else. -/
theorem State.loadRegs_same (s : State) (a : Nat) (rs : List (BitVec 4)) :
    (s.loadRegs a rs).cfg = s.cfg ∧ (s.loadRegs a rs).mem = s.mem ∧ (s.loadRegs a rs).m65 = s.m65 ∧
      (s.loadRegs a rs).c8 = { s.c8 with v := (s.loadRegs a rs).c8.v } ∧ (s.loadRegs a rs).xo = s.xo ∧
      (s.loadRegs a rs).hostQueue = s.hostQueue ∧ (s.loadRegs a rs).randDraws = s.randDraws := by
  induction rs generalizing s a with
  | nil => simp [State.loadRegs]
  | cons r rest ih =>
    obtain ⟨h1, h2, h3, h4, h5, h6, h7⟩ := ih ((s.afterRead a).setReg r (s.readVal a)) (a + 1)
    simp only [State.loadRegs]
    refine ⟨by simpa using h1, by simpa using h2, by simpa using h3, ?_, by simpa using h5, by simpa using h6,
      by simpa using h7⟩
    rw [h4]
    simp

/-- A register after registers without repeats are loaded from address `a`. -/
theorem State.reg_loadRegs (s : State) (a : Nat) (rs : List (BitVec 4)) (hn : rs.Nodup) (x : BitVec 4) :
    (s.loadRegs a rs).reg x = if x ∈ rs then s.readVal (a + rs.idxOf x) else s.reg x := by
  induction rs generalizing s a with
  | nil => simp [State.loadRegs]
  | cons r rest ih =>
    rw [List.nodup_cons] at hn
    rw [State.loadRegs, ih _ _ hn.2]
    by_cases hx : x = r
    · subst hx
      simp [hn.1]
    · by_cases hm : x ∈ rest
      · have : (r :: rest).idxOf x = rest.idxOf x + 1 := List.idxOf_cons_ne _ (Ne.symm hx)
        simp only [hm, if_true, List.mem_cons, hx, false_or, this, State.readVal_setReg, State.readVal_afterRead]
        congr 1
        omega
      · simp [hm, hx, State.reg_setReg]

theorem regsTo_length (x : BitVec 4) : (regsTo x).length = x.toNat + 1 := by simp [regsTo]

/-- Entry `k` of registers 0 to x. -/
theorem regsTo_getD (x : BitVec 4) (k : Nat) (h : k ≤ x.toNat) : (regsTo x).getD k 0 = BitVec.ofNat 4 k := by
  have hk : k < x.toNat + 1 := by omega
  simp [regsTo, hk]

theorem regsBetween_length (x y : BitVec 4) :
    (regsBetween x y).length = max (x.toNat - y.toNat) (y.toNat - x.toNat) + 1 := by
  unfold regsBetween
  split <;> simp <;> omega

theorem regsTo_nodup (x : BitVec 4) : (regsTo x).Nodup := by
  refine List.Nodup.map_on (fun i hi j hj e => ?_) List.nodup_range
  have h := congrArg BitVec.toNat e
  simp only [BitVec.toNat_ofNat, List.mem_range] at h hi hj
  omega

theorem regsBetween_nodup (x y : BitVec 4) : (regsBetween x y).Nodup := by
  unfold regsBetween
  split <;> refine List.Nodup.map_on (fun i hi j hj e => ?_) List.nodup_range <;>
    · have h := congrArg BitVec.toNat e
      simp only [BitVec.toNat_ofNat, List.mem_range] at h hi hj
      omega

theorem mem_regsTo (x r : BitVec 4) : r ∈ regsTo x ↔ r.toNat ≤ x.toNat := by
  simp only [regsTo, List.mem_map, List.mem_range]
  constructor
  · rintro ⟨i, hi, rfl⟩
    simp only [BitVec.toNat_ofNat]; omega
  · exact fun h => ⟨r.toNat, by omega, by simp⟩

theorem mem_regsBetween (x y r : BitVec 4) :
    r ∈ regsBetween x y ↔ min x.toNat y.toNat ≤ r.toNat ∧ r.toNat ≤ max x.toNat y.toNat := by
  unfold regsBetween
  split <;> simp only [List.mem_map, List.mem_range] <;> constructor
  · rintro ⟨i, hi, rfl⟩
    simp only [BitVec.toNat_ofNat]; omega
  · exact fun h => ⟨r.toNat - x.toNat, by omega, BitVec.eq_of_toNat_eq (by simp only [BitVec.toNat_ofNat]; omega)⟩
  · rintro ⟨i, hi, rfl⟩
    simp only [BitVec.toNat_ofNat]; omega
  · exact fun h => ⟨x.toNat - r.toNat, by omega, BitVec.eq_of_toNat_eq (by simp only [BitVec.toNat_ofNat]; omega)⟩

theorem idxOf_regsTo (x r : BitVec 4) (h : r.toNat ≤ x.toNat) : (regsTo x).idxOf r = r.toNat := by
  have hl : r.toNat < (regsTo x).length := by simp [regsTo]; omega
  have he : (regsTo x)[r.toNat] = r := by simp [regsTo]
  have := (regsTo_nodup x).idxOf_getElem r.toNat hl
  rwa [he] at this

/-- The place of register `r` among registers x to y: its distance from `x`. -/
theorem idxOf_regsBetween (x y r : BitVec 4) (h : r ∈ regsBetween x y) :
    (regsBetween x y).idxOf r = max (x.toNat - r.toNat) (r.toNat - x.toNat) := by
  rw [mem_regsBetween] at h
  have hl : max (x.toNat - r.toNat) (r.toNat - x.toNat) < (regsBetween x y).length := by
    rw [regsBetween_length]; omega
  have he : (regsBetween x y)[max (x.toNat - r.toNat) (r.toNat - x.toNat)] = r := by
    apply BitVec.eq_of_toNat_eq
    unfold regsBetween
    split <;> simp only [List.getElem_map, List.getElem_range, BitVec.toNat_ofNat] <;> omega
  have := (regsBetween_nodup x y).idxOf_getElem _ hl
  rwa [he] at this

/-! ## Skips, fetch, flag registers -/

/-- A skip changes `PC`, and on XOCHIP the record of bus operations and the fault log (45_c8_engine.md R325). -/
theorem State.skip_same (s : State) :
    s.skip.cfg = s.cfg ∧ s.skip.mem = s.mem ∧ s.skip.m65 = s.m65 ∧ s.skip.c8 = { s.c8 with pc := s.skip.c8.pc } ∧
      s.skip.xo = s.xo ∧ s.skip.hostQueue = s.hostQueue ∧ s.skip.randDraws = s.randDraws := by
  unfold State.skip
  split <;> simp

/-- Where a skip puts `PC`. -/
theorem State.skip_pc (s : State) :
    s.skip.c8.pc =
      if s.cfg.arch = .xochip ∧ s.readVal2 s.c8.pc.toNat = 0xF000 then s.c8.pc + 4 else s.c8.pc + 2 := by
  unfold State.skip
  by_cases h : s.cfg.arch = .xochip
  · by_cases h2 : s.readVal2 s.c8.pc.toNat = 0xF000 <;> simp [h, h2]
  · simp [h]

theorem State.fetchC8_c8 (s : State) :
    s.fetchC8.c8 = { s.c8 with op := s.readVal2 s.c8.pc.toNat, pc := s.c8.pc + 2 } := by
  unfold State.fetchC8
  dsimp only
  split <;> simp

theorem State.fetchC8_same (s : State) :
    s.fetchC8.cfg = s.cfg ∧ s.fetchC8.mem = s.mem ∧ s.fetchC8.m65 = s.m65 ∧
      s.fetchC8.hostQueue = s.hostQueue ∧ s.fetchC8.randDraws = s.randDraws ∧
      s.fetchC8.xo =
        { s.xo with cycles := if s.cfg.arch = .xochip then s.xo.cycles + 1 else s.xo.cycles } := by
  unfold State.fetchC8
  dsimp only
  by_cases h : s.cfg.arch = .xochip <;> simp [h]

/-- Saving registers into `FLAGS` changes `FLAGS` alone. -/
theorem State.saveFlags_eq (s : State) (rs : List (BitVec 4)) :
    s.saveFlags rs = s.updXo fun o => { o with flags := (s.saveFlags rs).xo.flags } := by
  induction rs generalizing s with
  | nil => rfl
  | cons r rest ih =>
    rw [State.saveFlags, ih]
    rfl

/-- Restoring registers from `FLAGS` changes `V` alone. -/
theorem State.restoreFlags_eq (s : State) (rs : List (BitVec 4)) :
    s.restoreFlags rs = s.updC8 fun c => { c with v := (s.restoreFlags rs).c8.v } := by
  induction rs generalizing s with
  | nil => rfl
  | cons r rest ih =>
    rw [State.restoreFlags, ih]
    rfl

/-- Loading the pattern changes `PATTERN`, the fault log and the record of bus operations, and nothing else. -/
theorem State.loadPattern_same (s : State) (a i k : Nat) :
    (s.loadPattern a i k).cfg = s.cfg ∧ (s.loadPattern a i k).mem = s.mem ∧ (s.loadPattern a i k).m65 = s.m65 ∧
      (s.loadPattern a i k).c8 = s.c8 ∧
      (s.loadPattern a i k).xo = { s.xo with pattern := (s.loadPattern a i k).xo.pattern } ∧
      (s.loadPattern a i k).hostQueue = s.hostQueue ∧ (s.loadPattern a i k).randDraws = s.randDraws := by
  induction k generalizing s i with
  | zero => simp [State.loadPattern]
  | succ k ih =>
    obtain ⟨h1, h2, h3, h4, h5, h6, h7⟩ := ih
      ((s.afterRead (a + i)).updXo fun x => { x with pattern := x.pattern.setIfInBounds i (s.readVal (a + i)) }) (i + 1)
    simp only [State.loadPattern]
    refine ⟨by simpa using h1, by simpa using h2, by simpa using h3, by simpa using h4, ?_, by simpa using h6,
      by simpa using h7⟩
    rw [h5]
    simp

/-! ## The fetch of a macro-step, said once (45_c8_engine.md R322) -/

/-- What a fault record holds does not depend on the logs. -/
theorem State.faultRecord_congr (s : State) (log : List FaultRecord) (trace : List BusOp) (k : FaultKind)
    (info : Option Nat) :
    State.faultRecord { s with faultLog := log, busTrace := trace } k info = s.faultRecord k info := rfl

/-- The two fetch reads: the record of bus operations and the reports. -/
theorem State.afterRead2_fetch (s : State) (ha : s.cfg.arch.is65 = false) :
    s.afterRead2 s.c8.pc.toNat =
      { s with faultLog := s.faultLog ++ s.fetchReports, busTrace := s.busTrace ++ busReads s s.c8.pc.toNat 2 } := by
  have hr : List.range 2 = [0, 1] := rfl
  have hrec : ∀ i, s.faultRecord .outOfBoundsRead (some i) =
      { kind := .outOfBoundsRead, arch := s.cfg.arch, opcode := s.c8.op, pc := s.c8.pc, regs := s.dumpState,
        info := some i } := fun i => by simp [State.faultRecord, ha]
  simp only [State.fetchReports, busReads, hr, ← hrec, List.filter_cons, List.filter_nil, List.map_cons, List.map_nil,
    Nat.add_zero, decide_eq_true_eq, ← Nat.not_lt]
  by_cases h0 : s.c8.pc.toNat < s.cfg.memSize <;> by_cases h1 : s.c8.pc.toNat + 1 < s.cfg.memSize <;>
    simp [State.afterRead2, State.afterRead, State.readVal, State.note, State.raise, h0, h1,
      State.faultRecord_congr, State.peek]

/-- The fetch, wherever `PC` stands: the two reads and their reports, `OP`, `PC` and `CYCLES`. -/
theorem State.fetchC8_eq (s : State) (ha : s.cfg.arch.is65 = false) : s.fetchC8 = s.fetchedC8 := by
  unfold State.fetchC8 State.fetchedC8
  rw [State.afterRead2_fetch s ha]
  by_cases hx : s.cfg.arch = .xochip <;> simp [State.updC8, State.updXo, State.readVal2, hx]

end Sys2Proof.Machine
end

