-- ==== Sys2Proof/Laws/Display.lean ====
section
/-! SUPPORT. What the framebuffer operations do, once: cells after a write, a block or a whole new grid, logical pixels
after a pixel write (10_state.md R55), and the parts of the state a draw leaves alone. -/

namespace Sys2Proof.Machine

/-! ## Cells -/

theorem FrameBuf.cell_of_lt (fb : FrameBuf) {x y : Nat} (hx : x < 128) (hy : y < 64) :
    fb.cell x y = (fb[y]'hy)[x]'hx := by simp [FrameBuf.cell, hx, hy]

theorem FrameBuf.cell_outside (fb : FrameBuf) {x y : Nat} (h : 128 ≤ x ∨ 64 ≤ y) : fb.cell x y = 0 := by
  have : ¬ (y < 64 ∧ x < 128) := by omega
  simp [FrameBuf.cell, this]

/-- Grids with equal cells are equal. -/
theorem FrameBuf.ext_cell {f g : FrameBuf} (h : ∀ x y, x < 128 → y < 64 → f.cell x y = g.cell x y) : f = g := by
  apply Vector.ext
  intro y hy
  apply Vector.ext
  intro x hx
  have := h x y hx hy
  rwa [FrameBuf.cell_of_lt f hx hy, FrameBuf.cell_of_lt g hx hy] at this

theorem FrameBuf.cell_tabulate (f : Nat → Nat → BitVec 4) (x y : Nat) :
    (FrameBuf.tabulate f).cell x y = if x < 128 ∧ y < 64 then f x y else 0 := by
  by_cases h : x < 128 ∧ y < 64
  · rw [FrameBuf.cell_of_lt _ h.1 h.2, if_pos h]
    simp [FrameBuf.tabulate]
  · rw [FrameBuf.cell_outside _ (by omega), if_neg h]

@[simp] theorem FrameBuf.cell_blank (x y : Nat) : FrameBuf.blank.cell x y = 0 := by
  by_cases h : x < 128 ∧ y < 64
  · rw [FrameBuf.cell_of_lt _ h.1 h.2]
    simp [FrameBuf.blank]
  · rw [FrameBuf.cell_outside _ (by omega)]

/-- A cell after a cell write. -/
theorem FrameBuf.cell_setCell (fb : FrameBuf) (x y : Nat) (v : BitVec 4) (a b : Nat) :
    (fb.setCell x y v).cell a b = if a = x ∧ b = y ∧ x < 128 ∧ y < 64 then v else fb.cell a b := by
  by_cases h : y < 64 ∧ x < 128
  · by_cases hab : a < 128 ∧ b < 64
    · rw [FrameBuf.cell_of_lt _ hab.1 hab.2, FrameBuf.cell_of_lt _ hab.1 hab.2]
      simp only [FrameBuf.setCell, h, and_self, dite_true, Vector.getElem_set]
      by_cases hy : y = b
      · subst hy
        by_cases hx : x = a
        · simp [hx]
        · simp [hx, Ne.symm hx]
      · simp [hy, Ne.symm hy]
    · rw [FrameBuf.cell_outside _ (by omega), FrameBuf.cell_outside _ (by omega), if_neg (by omega)]
  · simp only [FrameBuf.setCell, h, dite_false]
    rw [if_neg (by omega)]

/-- A cell after a row of `k` cells is written. -/
theorem FrameBuf.cell_setRun (fb : FrameBuf) (x y : Nat) (v : BitVec 4) (k a b : Nat) :
    (fb.setRun x y v k).cell a b =
      if x ≤ a ∧ a < x + k ∧ b = y ∧ a < 128 ∧ b < 64 then v else fb.cell a b := by
  induction k with
  | zero => rw [FrameBuf.setRun, if_neg (by omega)]
  | succ k ih =>
    rw [FrameBuf.setRun, FrameBuf.cell_setCell, ih]
    by_cases h : a = x + k ∧ b = y ∧ x + k < 128 ∧ y < 64
    · rw [if_pos h, if_pos (by omega)]
    · rw [if_neg h]
      by_cases h2 : x ≤ a ∧ a < x + k ∧ b = y ∧ a < 128 ∧ b < 64
      · rw [if_pos h2, if_pos (by omega)]
      · rw [if_neg h2, if_neg (by omega)]

/-- A cell after a block of `rows` rows of `k` cells is written. -/
theorem FrameBuf.cell_setBlock (fb : FrameBuf) (x y k : Nat) (v : BitVec 4) (rows a b : Nat) :
    (fb.setBlock x y k v rows).cell a b =
      if x ≤ a ∧ a < x + k ∧ y ≤ b ∧ b < y + rows ∧ a < 128 ∧ b < 64 then v else fb.cell a b := by
  induction rows with
  | zero => rw [FrameBuf.setBlock, if_neg (by omega)]
  | succ rows ih =>
    rw [FrameBuf.setBlock, FrameBuf.cell_setRun, ih]
    by_cases h : x ≤ a ∧ a < x + k ∧ b = y + rows ∧ a < 128 ∧ b < 64
    · rw [if_pos h, if_pos (by omega)]
    · rw [if_neg h]
      by_cases h2 : x ≤ a ∧ a < x + k ∧ y ≤ b ∧ b < y + rows ∧ a < 128 ∧ b < 64
      · rw [if_pos h2, if_pos (by omega)]
      · rw [if_neg h2, if_neg (by omega)]

/-! ## Logical pixels -/

theorem State.pixelSide_cases (s : State) : s.pixelSide = 1 ∨ s.pixelSide = 2 := by
  unfold State.pixelSide; split <;> simp

theorem State.pixelSide_congr (s t : State) (hc : t.cfg = s.cfg) (hx : t.xo = s.xo) : t.pixelSide = s.pixelSide := by
  simp only [State.pixelSide, hc, hx]

theorem State.logicalWidth_congr (s t : State) (hc : t.cfg = s.cfg) (hx : t.xo = s.xo) :
    t.logicalWidth = s.logicalWidth := by
  simp only [State.logicalWidth, hc, hx]

theorem State.logicalHeight_congr (s t : State) (hc : t.cfg = s.cfg) (hx : t.xo = s.xo) :
    t.logicalHeight = s.logicalHeight := by
  simp only [State.logicalHeight, hc, hx]

/-- The logical grid covers 128 x 64 cells on XOCHIP and 64 x 32 on CHIP8. -/
theorem State.logical_le (s : State) : s.logicalWidth * s.pixelSide ≤ 128 ∧ s.logicalHeight * s.pixelSide ≤ 64 := by
  unfold State.logicalWidth State.logicalHeight State.pixelSide
  by_cases h : s.cfg.arch = .xochip <;> cases hh : s.xo.hires <;> simp [h]

@[simp] theorem State.pixelSide_setPx (s : State) (lx ly : Nat) (v : BitVec 4) :
    (s.setPx lx ly v).pixelSide = s.pixelSide := rfl
@[simp] theorem State.logicalWidth_setPx (s : State) (lx ly : Nat) (v : BitVec 4) :
    (s.setPx lx ly v).logicalWidth = s.logicalWidth := rfl
@[simp] theorem State.logicalHeight_setPx (s : State) (lx ly : Nat) (v : BitVec 4) :
    (s.setPx lx ly v).logicalHeight = s.logicalHeight := rfl

/-- A logical pixel after a pixel write inside the logical grid. -/
theorem State.getPx_setPx (s : State) (lx ly : Nat) (v : BitVec 4) (hx : lx < s.logicalWidth)
    (hy : ly < s.logicalHeight) (px py : Nat) :
    (s.setPx lx ly v).getPx px py = if px = lx ∧ py = ly then v else s.getPx px py := by
  obtain ⟨hw, hh⟩ := s.logical_le
  simp only [State.getPx, State.pixelSide_setPx]
  simp only [State.setPx, State.updC8_c8, FrameBuf.cell_setBlock]
  rcases s.pixelSide_cases with hk | hk <;> rw [hk] at hw hh ⊢
  · by_cases h : px = lx ∧ py = ly
    · rw [if_pos (by omega), if_pos h]
    · rw [if_neg (by omega), if_neg h]
  · by_cases h : px = lx ∧ py = ly
    · rw [if_pos (by omega), if_pos h]
    · rw [if_neg (by omega), if_neg h]

/-- A pixel write keeps low-resolution blocks whole (R55). -/
theorem State.blocksEqual_setPx (s : State) (lx ly : Nat) (v : BitVec 4) (h : s.blocksEqual) :
    (s.setPx lx ly v).blocksEqual := by
  intro ha hr x y hx hy
  have hk : s.pixelSide = 2 := by
    unfold State.pixelSide
    exact if_pos ⟨ha, hr⟩
  have h0 := h ha hr x y hx hy
  simp only [State.setPx, State.updC8_c8, FrameBuf.cell_setBlock, hk]
  rw [h0]
  by_cases hc : lx * 2 ≤ x ∧ x < lx * 2 + 2 ∧ ly * 2 ≤ y ∧ y < ly * 2 + 2 ∧ x < 128 ∧ y < 64
  · rw [if_pos hc, if_pos (by omega)]
  · rw [if_neg hc, if_neg (by omega)]

/-- A new grid of logical pixels has whole blocks. -/
theorem State.blocksEqual_scroll (s : State) (dx dy : Int) : (s.scroll dx dy).blocksEqual := by
  intro ha hr x y hx hy
  have hk : s.pixelSide = 2 := by
    unfold State.pixelSide
    exact if_pos ⟨ha, hr⟩
  simp only [State.scroll, State.setFb_c8, FrameBuf.cell_tabulate, hk]
  rw [if_pos ⟨hx, hy⟩, if_pos (by omega)]
  have h1 : x / 2 * 2 / 2 = x / 2 := by omega
  have h2 : y / 2 * 2 / 2 = y / 2 := by omega
  rw [h1, h2]

/-- A logical pixel after a scroll (47_c8_display.md R403). -/
theorem State.getPx_scroll (s : State) (dx dy : Int) (lx ly : Nat) (hx : lx < s.logicalWidth)
    (hy : ly < s.logicalHeight) : (s.scroll dx dy).getPx lx ly = s.scrolledPx dx dy lx ly := by
  obtain ⟨hw, hh⟩ := s.logical_le
  have hk : (s.scroll dx dy).pixelSide = s.pixelSide := State.pixelSide_congr s _ (by simp [State.scroll]) (by simp [State.scroll])
  simp only [State.getPx, hk]
  simp only [State.scroll, State.setFb_c8, FrameBuf.cell_tabulate]
  have hpos : 0 < s.pixelSide := by rcases s.pixelSide_cases with h | h <;> omega
  have h1 : lx * s.pixelSide < 128 := by
    rcases s.pixelSide_cases with h | h <;> rw [h] at hw ⊢ <;> omega
  have h2 : ly * s.pixelSide < 64 := by
    rcases s.pixelSide_cases with h | h <;> rw [h] at hh ⊢ <;> omega
  rw [if_pos ⟨h1, h2⟩, Nat.mul_div_cancel _ hpos, Nat.mul_div_cancel _ hpos]

/-! ## What a draw leaves alone (R401) -/

/-- A draw changes `FB`, the fault log and the record of bus operations, and nothing else. -/
def SameButFb (s t : State) : Prop :=
  t.cfg = s.cfg ∧ t.mem = s.mem ∧ t.m65 = s.m65 ∧ t.c8 = { s.c8 with fb := t.c8.fb } ∧ t.xo = s.xo ∧
    t.hostQueue = s.hostQueue ∧ t.randDraws = s.randDraws

theorem SameButFb.refl (s : State) : SameButFb s s := by simp [SameButFb]

theorem SameButFb.trans {s t u : State} (h : SameButFb s t) (h' : SameButFb t u) : SameButFb s u := by
  simp only [SameButFb] at *
  obtain ⟨a1, a2, a3, a4, a5, a6, a7⟩ := h
  obtain ⟨b1, b2, b3, b4, b5, b6, b7⟩ := h'
  refine ⟨by rw [b1, a1], by rw [b2, a2], by rw [b3, a3], ?_, by rw [b5, a5], by rw [b6, a6], by rw [b7, a7]⟩
  rw [b4, a4]

theorem sameButFb_setPx (s : State) (lx ly : Nat) (v : BitVec 4) : SameButFb s (s.setPx lx ly v) := by
  simp [SameButFb, State.setPx]

theorem sameButFb_afterRead (s : State) (a : Nat) : SameButFb s (s.afterRead a) := by
  simp [SameButFb]

theorem sameButFb_plotByte (p x0 py : Nat) (byte : Byte) (bs : List Nat) (sc : State × Bool) :
    SameButFb sc.1 (plotByte p x0 py byte bs sc).1 := by
  induction bs generalizing sc with
  | nil => exact SameButFb.refl _
  | cons b rest ih =>
    rw [plotByte]
    refine SameButFb.trans ?_ (ih _)
    split
    · exact sameButFb_setPx ..
    · exact SameButFb.refl _

theorem sameButFb_drawBytes (x0 y0 a : Nat) (bs : List SpriteByte) (sc : State × Bool) :
    SameButFb sc.1 (drawBytes x0 y0 a bs sc).1 := by
  induction bs generalizing a sc with
  | nil => exact SameButFb.refl _
  | cons b rest ih =>
    obtain ⟨p, r, c⟩ := b
    rw [drawBytes]
    exact ((sameButFb_afterRead sc.1 a).trans (sameButFb_plotByte ..)).trans (ih _ _)

theorem sameButFb_drawSprite (s : State) (x y n : BitVec 4) : SameButFb s (s.drawSprite x y n).1 :=
  sameButFb_drawBytes ..

end Sys2Proof.Machine
end

