-- ==== Sys2Proof/Laws/Engine65.lean ====
section
/-! SUPPORT. What the shared operations of the 6502 engine do, once: a row, a run of rows, and the whole rest of an
instruction of each class. -/

namespace Sys2Proof.Machine

/-! ## What differs after a row -/

theorem memSize_of_is65 {s : State} (h : s.cfg.arch.is65 = true) : s.cfg.memSize = 65536 := by
  cases ha : s.cfg.arch <;> simp_all [Arch.is65, Config.memSize, Arch.memSize]

theorem word_lt_memSize {s : State} (h : s.cfg.arch.is65 = true) (a : Word) : a.toNat < s.cfg.memSize := by
  rw [memSize_of_is65 h]; exact a.isLt

theorem readVal65 {s : State} (h : s.cfg.arch.is65 = true) (a : Word) : s.readVal a.toNat = s.peekW a :=
  State.readVal_of_lt s _ (word_lt_memSize h a)

theorem onlyCpu65_iff (s t : State) :
    OnlyCpu65 s t ↔ t.cfg = s.cfg ∧ t.mem = s.mem ∧ t.c8 = s.c8 ∧ t.xo = s.xo ∧ t.faultLog = s.faultLog ∧
      t.hostQueue = s.hostQueue ∧ t.randDraws = s.randDraws := by
  obtain ⟨⟩ := s
  obtain ⟨⟩ := t
  simp [OnlyCpu65]

theorem onlyCpu65AndMem_iff (s t : State) :
    OnlyCpu65AndMem s t ↔ t.cfg = s.cfg ∧ t.c8 = s.c8 ∧ t.xo = s.xo ∧ t.faultLog = s.faultLog ∧
      t.hostQueue = s.hostQueue ∧ t.randDraws = s.randDraws := by
  obtain ⟨⟩ := s
  obtain ⟨⟩ := t
  simp [OnlyCpu65AndMem]

theorem OnlyCpu65.refl (s : State) : OnlyCpu65 s s := by simp [onlyCpu65_iff]

theorem OnlyCpu65.trans {s t u : State} (h : OnlyCpu65 s t) (h' : OnlyCpu65 t u) : OnlyCpu65 s u := by
  rw [onlyCpu65_iff] at *
  simp_all

theorem OnlyCpu65.toMem {s t : State} (h : OnlyCpu65 s t) : OnlyCpu65AndMem s t := by
  rw [onlyCpu65_iff] at h
  rw [onlyCpu65AndMem_iff]
  simp_all

theorem OnlyCpu65AndMem.trans {s t u : State} (h : OnlyCpu65AndMem s t) (h' : OnlyCpu65AndMem t u) :
    OnlyCpu65AndMem s u := by
  rw [onlyCpu65AndMem_iff] at *
  simp_all

theorem OnlyCpu65.is65 {s t : State} (h : OnlyCpu65 s t) (h65 : s.cfg.arch.is65 = true) :
    t.cfg.arch.is65 = true := by
  rw [onlyCpu65_iff] at h; rw [h.1]; exact h65

theorem OnlyCpu65.peekW {s t : State} (h : OnlyCpu65 s t) (a : Word) : t.peekW a = s.peekW a := by
  rw [onlyCpu65_iff] at h; exact State.peek_congr s t h.1 h.2.1 _

theorem OnlyCpu65.memSame {s t : State} (h : OnlyCpu65 s t) : MemSame s t := by
  rw [onlyCpu65_iff] at h; exact fun b => State.peek_congr s t h.1 h.2.1 b

/-- A read row on the 6502 family: the byte of memory reaches the registers, one bus operation is recorded, and
nothing else differs. -/
theorem readRow_spec {s : State} (h : s.cfg.arch.is65 = true) (a : Word) (f : Byte → Cpu65 → Cpu65) :
    (s.readRow a f).m65 = f (s.peekW a) s.m65 ∧ OnlyCpu65 s (s.readRow a f) ∧
      (s.readRow a f).busTrace = s.busTrace ++ [.read a.toNat (s.peekW a) false] := by
  refine ⟨by rw [State.readRow_m65, readVal65 h], ?_, ?_⟩
  · rw [onlyCpu65_iff]
    simp [State.readRow, State.afterRead_faultLog, word_lt_memSize h a]
  · simp [State.readRow, word_lt_memSize h a, readVal65 h]

/-- A write row on the 6502 family. -/
theorem writeRow_spec {s : State} (h : s.cfg.arch.is65 = true) (a : Word) (v : Byte) (f : Cpu65 → Cpu65) :
    (s.writeRow a v f).m65 = f s.m65 ∧ OnlyCpu65AndMem s (s.writeRow a v f) ∧
      StoresByte s (s.writeRow a v f) a.toNat v ∧
      (s.writeRow a v f).busTrace = s.busTrace ++ [.write a.toNat v false] := by
  refine ⟨State.writeRow_m65 .., ?_, ⟨?_, fun b hb => ?_⟩, ?_⟩
  · rw [onlyCpu65AndMem_iff]
    simp [State.writeRow, State.memWrite_faultLog, word_lt_memSize h a]
  · simp [State.peek_writeRow, State.peek_memWrite, word_lt_memSize h a]
  · simp [State.peek_writeRow, State.peek_memWrite, hb]
  · simp [State.writeRow, word_lt_memSize h a]

/-! ## Words and the index add -/

theorem mkWord_addCarry (hi low idx : Byte) :
    mkWord (addCarry hi (indexCarry low idx)) (low + idx) = mkWord hi low + zext8 idx := by
  apply BitVec.eq_of_toNat_eq
  have h1 := hi.isLt
  have h2 := low.isLt
  have h3 := idx.isLt
  unfold addCarry indexCarry zext8
  rw [BitVec.toNat_add, mkWord_toNat, mkWord_toNat]
  by_cases h : 256 ≤ low.toNat + idx.toNat
  · simp [h, flagByte, BitVec.toNat_setWidth, BitVec.toNat_add]; omega
  · simp [h, flagByte, BitVec.toNat_setWidth, BitVec.toNat_add]; omega

@[simp] theorem readRow_m65_of65 {s : State} (h : s.cfg.arch.is65 = true) (a : Word) (f : Byte → Cpu65 → Cpu65) :
   (s.readRow a f).m65 = f (s.peekW a) s.m65 := (readRow_spec h a f).1

@[simp] theorem peekW_readRow (s : State) (a b : Word) (f : Byte → Cpu65 → Cpu65) :
   (s.readRow a f).peekW b = s.peekW b := by simp [State.peekW]

@[simp] theorem readRow_trace_length {s : State} (h : s.cfg.arch.is65 = true) (a : Word) (f : Byte → Cpu65 → Cpu65) :
   (s.readRow a f).busTrace.length = s.busTrace.length + 1 := by simp [(readRow_spec h a f).2.2]

@[simp] theorem readRow_faultLog_of65 {s : State} (h : s.cfg.arch.is65 = true) (a : Word) (f : Byte → Cpu65 → Cpu65) :
   (s.readRow a f).faultLog = s.faultLog := ((onlyCpu65_iff _ _).mp (readRow_spec h a f).2.1).2.2.2.2.1
@[simp] theorem writeRow_faultLog_of65 {s : State} (h : s.cfg.arch.is65 = true) (a : Word) (v) (f : Cpu65 → Cpu65) :
   (s.writeRow a v f).faultLog = s.faultLog := ((onlyCpu65AndMem_iff _ _).mp (writeRow_spec h a v f).2.1).2.2.2.1

theorem readOp_t (mn : Mn) (m : Byte) (c : Cpu65) : (readOp mn m c).t = c.t := by cases mn <;> rfl
@[simp] theorem finish_t  (c : Cpu65) : (Cpu65.finish c).t = 0 := rfl
theorem readOp_visible (mn : Mn) (m : Byte) (c d : Cpu65)
    (h : (c.finish).visible = (d.finish).visible) :
    (Cpu65.finish (readOp mn m c)).visible = (Cpu65.finish (readOp mn m d)).visible := by
  obtain ⟨⟩ := c
  obtain ⟨⟩ := d
  simp only [Cpu65.visible, Cpu65.finish, Cpu65.mk.injEq] at h
  cases mn <;> simp_all [Cpu65.visible, Cpu65.finish, readOp]



@[simp] theorem writeRow_trace_length {s : State} (h : s.cfg.arch.is65 = true) (a : Word) (v : Byte) (f : Cpu65 → Cpu65) :
   (s.writeRow a v f).busTrace.length = s.busTrace.length + 1 := by simp [(writeRow_spec h a v f).2.2.2]

theorem addCarry_false (b : Byte) : addCarry b false = b := by simp [addCarry, flagByte]

theorem indexed_noCross {hi low idx : Byte} (h : indexCarry low idx = false) :
    mkWord hi (low + idx) = mkWord hi low + zext8 idx := by
  rw [← mkWord_addCarry, h, addCarry_false]

theorem indexed_cross {hi low idx : Byte} (h : indexCarry low idx = true) :
    mkWord (addCarry hi true) (low + idx) = mkWord hi low + zext8 idx := by
  rw [← mkWord_addCarry, h]

theorem peekW_writeRow {s : State} (h : s.cfg.arch.is65 = true) (a b : Word) (v : Byte) (f : Cpu65 → Cpu65) :
    (s.writeRow a v f).peekW b = if b = a then v else s.peekW b := by
  simp [State.peekW, State.peek_writeRow, State.peek_memWrite, word_lt_memSize h a, ← BitVec.toNat_inj]

theorem peek_writeRow65 {s : State} (h : s.cfg.arch.is65 = true) (a : Word) (v : Byte) (f : Cpu65 → Cpu65) (b : Nat) :
    (s.writeRow a v f).peek b = if b = a.toNat then v else s.peek b := by
  simp [State.peek_writeRow, State.peek_memWrite, word_lt_memSize h a]


theorem writeVal_proj (mn : Mn) (c : Cpu65) (s : Byte) (pc : Word) (p : Flags) (ir : Byte) (t : BitVec 3)
    (adl adh ptr data : Byte) (pgx : Bool) :
    writeVal mn ⟨c.a, c.x, c.y, s, pc, p, ir, t, adl, adh, ptr, data, pgx⟩ = writeVal mn c := by
  cases mn <;> rfl


/-! ## Runs of rows -/

/-- One row that finishes. -/
theorem runCycles_finish {mn : Mn} {mode : Mode} {s t : State} (k : Nat) (h : microCycle mn mode s = some t)
    (ht : t.m65.t = 0) : runCycles mn mode (k + 1) s = .next t := by
  simp [runCycles, h, ht]

/-- One row that goes on. -/
theorem runCycles_next {mn : Mn} {mode : Mode} {s t : State} (k : Nat) (h : microCycle mn mode s = some t)
    (ht : t.m65.t ≠ 0) : runCycles mn mode (k + 1) s = runCycles mn mode k t := by
  rw [runCycles, h]
  exact if_neg ht

end Sys2Proof.Machine
end

