-- ==== Sys2Proof/Laws/Instr65.lean ====
section
/-! SUPPORT. The whole rest of a 6502 instruction of each class, once: what `runInstr65` answers for class R, W, M, ACC,
IMP and BR, in every addressing mode the class has. -/

namespace Sys2Proof.Machine

set_option linter.unusedSimpArgs false
-- The theorems one after the other: elaborated at once they ask for a thread each.
set_option Elab.async false

theorem runInstr65_r_imm (mn : Mn) (s : State) (h : s.fetched65) (hc : mn.cls .imm = .r) (a : Word)
    (ha : s.effectiveAddr .imm = some a) :
    ∃ t, runInstr65 mn .imm s = .next t ∧
      t.m65.visible = (Cpu65.finish (readOp mn (s.peekW a) { s.m65 with pc := s.afterOperand .imm })).visible ∧
      OnlyCpu65 s t ∧ t.busTrace.length = s.busTrace.length + cycleCount mn .imm s := by
  obtain ⟨h65, ht⟩ := h
  simp only [State.effectiveAddr, Option.some.injEq, State.zpPointer] at ha
  subst ha
  simp only [onlyCpu65_iff, onlyCpu65AndMem_iff, StoresByte]
  simp [runInstr65, runCycles, microCycle, hc, memoryCycle, immCycle, accessRow, ht, h65, readOp_t, Cpu65.next, Cpu65.ad, cycleCount, -BitVec.toNat_add]
  exact readOp_visible _ _ _ _ (by simp [Cpu65.visible, Cpu65.finish, State.afterOperand, Mode.length, BitVec.add_assoc])

theorem runInstr65_r_zp (mn : Mn) (s : State) (h : s.fetched65) (hc : mn.cls .zp = .r) (a : Word)
    (ha : s.effectiveAddr .zp = some a) :
    ∃ t, runInstr65 mn .zp s = .next t ∧
      t.m65.visible = (Cpu65.finish (readOp mn (s.peekW a) { s.m65 with pc := s.afterOperand .zp })).visible ∧
      OnlyCpu65 s t ∧ t.busTrace.length = s.busTrace.length + cycleCount mn .zp s := by
  obtain ⟨h65, ht⟩ := h
  simp only [State.effectiveAddr, Option.some.injEq, State.zpPointer] at ha
  subst ha
  simp only [onlyCpu65_iff, onlyCpu65AndMem_iff, StoresByte]
  simp [runInstr65, runCycles, microCycle, hc, memoryCycle, zpCycle, accessRow, ht, h65, readOp_t, Cpu65.next, Cpu65.ad, cycleCount, -BitVec.toNat_add]
  exact readOp_visible _ _ _ _ (by simp [Cpu65.visible, Cpu65.finish, State.afterOperand, Mode.length, BitVec.add_assoc])

theorem runInstr65_r_zpx (mn : Mn) (s : State) (h : s.fetched65) (hc : mn.cls .zpx = .r) (a : Word)
    (ha : s.effectiveAddr .zpx = some a) :
    ∃ t, runInstr65 mn .zpx s = .next t ∧
      t.m65.visible = (Cpu65.finish (readOp mn (s.peekW a) { s.m65 with pc := s.afterOperand .zpx })).visible ∧
      OnlyCpu65 s t ∧ t.busTrace.length = s.busTrace.length + cycleCount mn .zpx s := by
  obtain ⟨h65, ht⟩ := h
  simp only [State.effectiveAddr, Option.some.injEq, State.zpPointer] at ha
  subst ha
  simp only [onlyCpu65_iff, onlyCpu65AndMem_iff, StoresByte]
  simp [runInstr65, runCycles, microCycle, hc, memoryCycle, zpIndexedCycle, accessRow, ht, h65, readOp_t, Cpu65.next, Cpu65.ad, cycleCount, -BitVec.toNat_add]
  exact readOp_visible _ _ _ _ (by simp [Cpu65.visible, Cpu65.finish, State.afterOperand, Mode.length, BitVec.add_assoc])

theorem runInstr65_r_zpy (mn : Mn) (s : State) (h : s.fetched65) (hc : mn.cls .zpy = .r) (a : Word)
    (ha : s.effectiveAddr .zpy = some a) :
    ∃ t, runInstr65 mn .zpy s = .next t ∧
      t.m65.visible = (Cpu65.finish (readOp mn (s.peekW a) { s.m65 with pc := s.afterOperand .zpy })).visible ∧
      OnlyCpu65 s t ∧ t.busTrace.length = s.busTrace.length + cycleCount mn .zpy s := by
  obtain ⟨h65, ht⟩ := h
  simp only [State.effectiveAddr, Option.some.injEq, State.zpPointer] at ha
  subst ha
  simp only [onlyCpu65_iff, onlyCpu65AndMem_iff, StoresByte]
  simp [runInstr65, runCycles, microCycle, hc, memoryCycle, zpIndexedCycle, accessRow, ht, h65, readOp_t, Cpu65.next, Cpu65.ad, cycleCount, -BitVec.toNat_add]
  exact readOp_visible _ _ _ _ (by simp [Cpu65.visible, Cpu65.finish, State.afterOperand, Mode.length, BitVec.add_assoc])

theorem runInstr65_r_abs (mn : Mn) (s : State) (h : s.fetched65) (hc : mn.cls .abs = .r) (a : Word)
    (ha : s.effectiveAddr .abs = some a) :
    ∃ t, runInstr65 mn .abs s = .next t ∧
      t.m65.visible = (Cpu65.finish (readOp mn (s.peekW a) { s.m65 with pc := s.afterOperand .abs })).visible ∧
      OnlyCpu65 s t ∧ t.busTrace.length = s.busTrace.length + cycleCount mn .abs s := by
  obtain ⟨h65, ht⟩ := h
  simp only [State.effectiveAddr, Option.some.injEq, State.zpPointer] at ha
  subst ha
  simp only [onlyCpu65_iff, onlyCpu65AndMem_iff, StoresByte]
  simp [runInstr65, runCycles, microCycle, hc, memoryCycle, absCycle, accessRow, ht, h65, readOp_t, Cpu65.next, Cpu65.ad, cycleCount, -BitVec.toNat_add]
  exact readOp_visible _ _ _ _ (by simp [Cpu65.visible, Cpu65.finish, State.afterOperand, Mode.length, BitVec.add_assoc])

theorem runInstr65_r_abx (mn : Mn) (s : State) (h : s.fetched65) (hc : mn.cls .abx = .r) (a : Word)
    (ha : s.effectiveAddr .abx = some a) :
    ∃ t, runInstr65 mn .abx s = .next t ∧
      t.m65.visible = (Cpu65.finish (readOp mn (s.peekW a) { s.m65 with pc := s.afterOperand .abx })).visible ∧
      OnlyCpu65 s t ∧ t.busTrace.length = s.busTrace.length + cycleCount mn .abx s := by
  obtain ⟨h65, ht⟩ := h
  simp only [State.effectiveAddr, Option.some.injEq, State.zpPointer] at ha
  subst ha
  simp only [onlyCpu65_iff, onlyCpu65AndMem_iff, StoresByte]
  cases hx : indexCarry (s.peekW s.m65.pc) s.m65.x
  · simp [runInstr65, runCycles, microCycle, hc, memoryCycle, absIndexedCycle, indexedTail, fixHighRow, accessRow, ht, h65, hx, readOp_t, Cpu65.next, Cpu65.ad, cycleCount, -BitVec.toNat_add]
    rw [indexed_noCross hx]
    exact readOp_visible _ _ _ _ (by simp [Cpu65.visible, Cpu65.finish, State.afterOperand, Mode.length, BitVec.add_assoc])
  · simp [runInstr65, runCycles, microCycle, hc, memoryCycle, absIndexedCycle, indexedTail, fixHighRow, accessRow, ht, h65, hx, readOp_t, Cpu65.next, Cpu65.ad, cycleCount, -BitVec.toNat_add]
    rw [indexed_cross hx]
    exact readOp_visible _ _ _ _ (by simp [Cpu65.visible, Cpu65.finish, State.afterOperand, Mode.length, BitVec.add_assoc])

theorem runInstr65_r_aby (mn : Mn) (s : State) (h : s.fetched65) (hc : mn.cls .aby = .r) (a : Word)
    (ha : s.effectiveAddr .aby = some a) :
    ∃ t, runInstr65 mn .aby s = .next t ∧
      t.m65.visible = (Cpu65.finish (readOp mn (s.peekW a) { s.m65 with pc := s.afterOperand .aby })).visible ∧
      OnlyCpu65 s t ∧ t.busTrace.length = s.busTrace.length + cycleCount mn .aby s := by
  obtain ⟨h65, ht⟩ := h
  simp only [State.effectiveAddr, Option.some.injEq, State.zpPointer] at ha
  subst ha
  simp only [onlyCpu65_iff, onlyCpu65AndMem_iff, StoresByte]
  cases hx : indexCarry (s.peekW s.m65.pc) s.m65.y
  · simp [runInstr65, runCycles, microCycle, hc, memoryCycle, absIndexedCycle, indexedTail, fixHighRow, accessRow, ht, h65, hx, readOp_t, Cpu65.next, Cpu65.ad, cycleCount, -BitVec.toNat_add]
    rw [indexed_noCross hx]
    exact readOp_visible _ _ _ _ (by simp [Cpu65.visible, Cpu65.finish, State.afterOperand, Mode.length, BitVec.add_assoc])
  · simp [runInstr65, runCycles, microCycle, hc, memoryCycle, absIndexedCycle, indexedTail, fixHighRow, accessRow, ht, h65, hx, readOp_t, Cpu65.next, Cpu65.ad, cycleCount, -BitVec.toNat_add]
    rw [indexed_cross hx]
    exact readOp_visible _ _ _ _ (by simp [Cpu65.visible, Cpu65.finish, State.afterOperand, Mode.length, BitVec.add_assoc])

theorem runInstr65_r_izx (mn : Mn) (s : State) (h : s.fetched65) (hc : mn.cls .izx = .r) (a : Word)
    (ha : s.effectiveAddr .izx = some a) :
    ∃ t, runInstr65 mn .izx s = .next t ∧
      t.m65.visible = (Cpu65.finish (readOp mn (s.peekW a) { s.m65 with pc := s.afterOperand .izx })).visible ∧
      OnlyCpu65 s t ∧ t.busTrace.length = s.busTrace.length + cycleCount mn .izx s := by
  obtain ⟨h65, ht⟩ := h
  simp only [State.effectiveAddr, Option.some.injEq, State.zpPointer] at ha
  subst ha
  simp only [onlyCpu65_iff, onlyCpu65AndMem_iff, StoresByte]
  simp [runInstr65, runCycles, microCycle, hc, memoryCycle, izxCycle, accessRow, ht, h65, readOp_t, Cpu65.next, Cpu65.ad, cycleCount, -BitVec.toNat_add]
  exact readOp_visible _ _ _ _ (by simp [Cpu65.visible, Cpu65.finish, State.afterOperand, Mode.length, BitVec.add_assoc])

theorem runInstr65_r_izy (mn : Mn) (s : State) (h : s.fetched65) (hc : mn.cls .izy = .r) (a : Word)
    (ha : s.effectiveAddr .izy = some a) :
    ∃ t, runInstr65 mn .izy s = .next t ∧
      t.m65.visible = (Cpu65.finish (readOp mn (s.peekW a) { s.m65 with pc := s.afterOperand .izy })).visible ∧
      OnlyCpu65 s t ∧ t.busTrace.length = s.busTrace.length + cycleCount mn .izy s := by
  obtain ⟨h65, ht⟩ := h
  simp only [State.effectiveAddr, Option.some.injEq, State.zpPointer] at ha
  subst ha
  simp only [onlyCpu65_iff, onlyCpu65AndMem_iff, StoresByte]
  cases hx : indexCarry (s.peekW (zeroPage (s.peekW s.m65.pc))) s.m65.y
  · simp [runInstr65, runCycles, microCycle, hc, memoryCycle, izyCycle, indexedTail, fixHighRow, accessRow, ht, h65, hx, readOp_t, Cpu65.next, Cpu65.ad, cycleCount, -BitVec.toNat_add]
    rw [indexed_noCross hx]
    exact readOp_visible _ _ _ _ (by simp [Cpu65.visible, Cpu65.finish, State.afterOperand, Mode.length, BitVec.add_assoc])
  · simp [runInstr65, runCycles, microCycle, hc, memoryCycle, izyCycle, indexedTail, fixHighRow, accessRow, ht, h65, hx, readOp_t, Cpu65.next, Cpu65.ad, cycleCount, -BitVec.toNat_add]
    rw [indexed_cross hx]
    exact readOp_visible _ _ _ _ (by simp [Cpu65.visible, Cpu65.finish, State.afterOperand, Mode.length, BitVec.add_assoc])

theorem runInstr65_w_zp (mn : Mn) (s : State) (h : s.fetched65) (hc : mn.cls .zp = .w) (a : Word)
    (ha : s.effectiveAddr .zp = some a) :
    ∃ t, runInstr65 mn .zp s = .next t ∧
      t.m65.visible = (Cpu65.finish { s.m65 with pc := s.afterOperand .zp }).visible ∧
      OnlyCpu65AndMem s t ∧ StoresByte s t a.toNat (writeVal mn s.m65) ∧
      t.busTrace.length = s.busTrace.length + cycleCount mn .zp s := by
  obtain ⟨h65, ht⟩ := h
  simp only [State.effectiveAddr, Option.some.injEq, State.zpPointer] at ha
  subst ha
  simp only [onlyCpu65_iff, onlyCpu65AndMem_iff, StoresByte]
  simp [runInstr65, runCycles, microCycle, hc, memoryCycle, zpCycle, accessRow, ht, h65, zeroPage, writeVal_proj, addCarry_false, peek_writeRow65, Cpu65.visible, Cpu65.finish, State.afterOperand, Mode.length, BitVec.add_assoc, Cpu65.next, Cpu65.ad, cycleCount, -BitVec.toNat_add]
  intro b hb hb2; exact absurd hb2 hb

theorem runInstr65_w_zpx (mn : Mn) (s : State) (h : s.fetched65) (hc : mn.cls .zpx = .w) (a : Word)
    (ha : s.effectiveAddr .zpx = some a) :
    ∃ t, runInstr65 mn .zpx s = .next t ∧
      t.m65.visible = (Cpu65.finish { s.m65 with pc := s.afterOperand .zpx }).visible ∧
      OnlyCpu65AndMem s t ∧ StoresByte s t a.toNat (writeVal mn s.m65) ∧
      t.busTrace.length = s.busTrace.length + cycleCount mn .zpx s := by
  obtain ⟨h65, ht⟩ := h
  simp only [State.effectiveAddr, Option.some.injEq, State.zpPointer] at ha
  subst ha
  simp only [onlyCpu65_iff, onlyCpu65AndMem_iff, StoresByte]
  simp [runInstr65, runCycles, microCycle, hc, memoryCycle, zpIndexedCycle, accessRow, ht, h65, zeroPage, writeVal_proj, addCarry_false, peek_writeRow65, Cpu65.visible, Cpu65.finish, State.afterOperand, Mode.length, BitVec.add_assoc, Cpu65.next, Cpu65.ad, cycleCount, -BitVec.toNat_add]
  intro b hb hb2; exact absurd hb2 hb

theorem runInstr65_w_zpy (mn : Mn) (s : State) (h : s.fetched65) (hc : mn.cls .zpy = .w) (a : Word)
    (ha : s.effectiveAddr .zpy = some a) :
    ∃ t, runInstr65 mn .zpy s = .next t ∧
      t.m65.visible = (Cpu65.finish { s.m65 with pc := s.afterOperand .zpy }).visible ∧
      OnlyCpu65AndMem s t ∧ StoresByte s t a.toNat (writeVal mn s.m65) ∧
      t.busTrace.length = s.busTrace.length + cycleCount mn .zpy s := by
  obtain ⟨h65, ht⟩ := h
  simp only [State.effectiveAddr, Option.some.injEq, State.zpPointer] at ha
  subst ha
  simp only [onlyCpu65_iff, onlyCpu65AndMem_iff, StoresByte]
  simp [runInstr65, runCycles, microCycle, hc, memoryCycle, zpIndexedCycle, accessRow, ht, h65, zeroPage, writeVal_proj, addCarry_false, peek_writeRow65, Cpu65.visible, Cpu65.finish, State.afterOperand, Mode.length, BitVec.add_assoc, Cpu65.next, Cpu65.ad, cycleCount, -BitVec.toNat_add]
  intro b hb hb2; exact absurd hb2 hb

theorem runInstr65_w_abs (mn : Mn) (s : State) (h : s.fetched65) (hc : mn.cls .abs = .w) (a : Word)
    (ha : s.effectiveAddr .abs = some a) :
    ∃ t, runInstr65 mn .abs s = .next t ∧
      t.m65.visible = (Cpu65.finish { s.m65 with pc := s.afterOperand .abs }).visible ∧
      OnlyCpu65AndMem s t ∧ StoresByte s t a.toNat (writeVal mn s.m65) ∧
      t.busTrace.length = s.busTrace.length + cycleCount mn .abs s := by
  obtain ⟨h65, ht⟩ := h
  simp only [State.effectiveAddr, Option.some.injEq, State.zpPointer] at ha
  subst ha
  simp only [onlyCpu65_iff, onlyCpu65AndMem_iff, StoresByte]
  simp [runInstr65, runCycles, microCycle, hc, memoryCycle, absCycle, accessRow, ht, h65, zeroPage, writeVal_proj, addCarry_false, peek_writeRow65, Cpu65.visible, Cpu65.finish, State.afterOperand, Mode.length, BitVec.add_assoc, Cpu65.next, Cpu65.ad, cycleCount, -BitVec.toNat_add]
  intro b hb hb2; exact absurd hb2 hb

theorem runInstr65_w_abx (mn : Mn) (s : State) (h : s.fetched65) (hc : mn.cls .abx = .w) (a : Word)
    (ha : s.effectiveAddr .abx = some a) :
    ∃ t, runInstr65 mn .abx s = .next t ∧
      t.m65.visible = (Cpu65.finish { s.m65 with pc := s.afterOperand .abx }).visible ∧
      OnlyCpu65AndMem s t ∧ StoresByte s t a.toNat (writeVal mn s.m65) ∧
      t.busTrace.length = s.busTrace.length + cycleCount mn .abx s := by
  obtain ⟨h65, ht⟩ := h
  simp only [State.effectiveAddr, Option.some.injEq, State.zpPointer] at ha
  subst ha
  simp only [onlyCpu65_iff, onlyCpu65AndMem_iff, StoresByte]
  cases hx : indexCarry (s.peekW s.m65.pc) s.m65.x
  · simp [runInstr65, runCycles, microCycle, hc, memoryCycle, absIndexedCycle, indexedTail, fixHighRow, accessRow, ht, h65, hx, zeroPage, writeVal_proj, addCarry_false, peek_writeRow65, Cpu65.visible, Cpu65.finish, State.afterOperand, Mode.length, BitVec.add_assoc, Cpu65.next, Cpu65.ad, cycleCount, -BitVec.toNat_add]
    simp only [indexed_noCross hx]
    exact ⟨fun h => absurd trivial h, fun b hb hb2 => absurd hb2 hb⟩
  · simp [runInstr65, runCycles, microCycle, hc, memoryCycle, absIndexedCycle, indexedTail, fixHighRow, accessRow, ht, h65, hx, zeroPage, writeVal_proj, addCarry_false, peek_writeRow65, Cpu65.visible, Cpu65.finish, State.afterOperand, Mode.length, BitVec.add_assoc, Cpu65.next, Cpu65.ad, cycleCount, -BitVec.toNat_add]
    simp only [indexed_cross hx]
    exact ⟨fun h => absurd trivial h, fun b hb hb2 => absurd hb2 hb⟩

theorem runInstr65_w_aby (mn : Mn) (s : State) (h : s.fetched65) (hc : mn.cls .aby = .w) (a : Word)
    (ha : s.effectiveAddr .aby = some a) :
    ∃ t, runInstr65 mn .aby s = .next t ∧
      t.m65.visible = (Cpu65.finish { s.m65 with pc := s.afterOperand .aby }).visible ∧
      OnlyCpu65AndMem s t ∧ StoresByte s t a.toNat (writeVal mn s.m65) ∧
      t.busTrace.length = s.busTrace.length + cycleCount mn .aby s := by
  obtain ⟨h65, ht⟩ := h
  simp only [State.effectiveAddr, Option.some.injEq, State.zpPointer] at ha
  subst ha
  simp only [onlyCpu65_iff, onlyCpu65AndMem_iff, StoresByte]
  cases hx : indexCarry (s.peekW s.m65.pc) s.m65.y
  · simp [runInstr65, runCycles, microCycle, hc, memoryCycle, absIndexedCycle, indexedTail, fixHighRow, accessRow, ht, h65, hx, zeroPage, writeVal_proj, addCarry_false, peek_writeRow65, Cpu65.visible, Cpu65.finish, State.afterOperand, Mode.length, BitVec.add_assoc, Cpu65.next, Cpu65.ad, cycleCount, -BitVec.toNat_add]
    simp only [indexed_noCross hx]
    exact ⟨fun h => absurd trivial h, fun b hb hb2 => absurd hb2 hb⟩
  · simp [runInstr65, runCycles, microCycle, hc, memoryCycle, absIndexedCycle, indexedTail, fixHighRow, accessRow, ht, h65, hx, zeroPage, writeVal_proj, addCarry_false, peek_writeRow65, Cpu65.visible, Cpu65.finish, State.afterOperand, Mode.length, BitVec.add_assoc, Cpu65.next, Cpu65.ad, cycleCount, -BitVec.toNat_add]
    simp only [indexed_cross hx]
    exact ⟨fun h => absurd trivial h, fun b hb hb2 => absurd hb2 hb⟩

theorem runInstr65_w_izx (mn : Mn) (s : State) (h : s.fetched65) (hc : mn.cls .izx = .w) (a : Word)
    (ha : s.effectiveAddr .izx = some a) :
    ∃ t, runInstr65 mn .izx s = .next t ∧
      t.m65.visible = (Cpu65.finish { s.m65 with pc := s.afterOperand .izx }).visible ∧
      OnlyCpu65AndMem s t ∧ StoresByte s t a.toNat (writeVal mn s.m65) ∧
      t.busTrace.length = s.busTrace.length + cycleCount mn .izx s := by
  obtain ⟨h65, ht⟩ := h
  simp only [State.effectiveAddr, Option.some.injEq, State.zpPointer] at ha
  subst ha
  simp only [onlyCpu65_iff, onlyCpu65AndMem_iff, StoresByte]
  simp [runInstr65, runCycles, microCycle, hc, memoryCycle, izxCycle, accessRow, ht, h65, zeroPage, writeVal_proj, addCarry_false, peek_writeRow65, Cpu65.visible, Cpu65.finish, State.afterOperand, Mode.length, BitVec.add_assoc, Cpu65.next, Cpu65.ad, cycleCount, -BitVec.toNat_add]
  intro b hb hb2; exact absurd hb2 hb

theorem runInstr65_w_izy (mn : Mn) (s : State) (h : s.fetched65) (hc : mn.cls .izy = .w) (a : Word)
    (ha : s.effectiveAddr .izy = some a) :
    ∃ t, runInstr65 mn .izy s = .next t ∧
      t.m65.visible = (Cpu65.finish { s.m65 with pc := s.afterOperand .izy }).visible ∧
      OnlyCpu65AndMem s t ∧ StoresByte s t a.toNat (writeVal mn s.m65) ∧
      t.busTrace.length = s.busTrace.length + cycleCount mn .izy s := by
  obtain ⟨h65, ht⟩ := h
  simp only [State.effectiveAddr, Option.some.injEq, State.zpPointer] at ha
  subst ha
  simp only [onlyCpu65_iff, onlyCpu65AndMem_iff, StoresByte]
  cases hx : indexCarry (s.peekW (zeroPage (s.peekW s.m65.pc))) s.m65.y
  · simp [zeroPage] at hx
    simp [runInstr65, runCycles, microCycle, hc, memoryCycle, izyCycle, indexedTail, fixHighRow, accessRow, ht, h65, hx, zeroPage, writeVal_proj, addCarry_false, peek_writeRow65, Cpu65.visible, Cpu65.finish, State.afterOperand, Mode.length, BitVec.add_assoc, Cpu65.next, Cpu65.ad, cycleCount, -BitVec.toNat_add]
    simp only [indexed_noCross hx]
    exact ⟨fun h => absurd trivial h, fun b hb hb2 => absurd hb2 hb⟩
  · simp [zeroPage] at hx
    simp [runInstr65, runCycles, microCycle, hc, memoryCycle, izyCycle, indexedTail, fixHighRow, accessRow, ht, h65, hx, zeroPage, writeVal_proj, addCarry_false, peek_writeRow65, Cpu65.visible, Cpu65.finish, State.afterOperand, Mode.length, BitVec.add_assoc, Cpu65.next, Cpu65.ad, cycleCount, -BitVec.toNat_add]
    simp only [indexed_cross hx]
    exact ⟨fun h => absurd trivial h, fun b hb hb2 => absurd hb2 hb⟩

theorem runInstr65_m_zp (mn : Mn) (s : State) (h : s.fetched65) (hc : mn.cls .zp = .m) (a : Word)
    (ha : s.effectiveAddr .zp = some a) :
    ∃ t, runInstr65 mn .zp s = .next t ∧
      t.m65.visible = (Cpu65.finish { s.m65 with pc := s.afterOperand .zp, p := (modifyOp mn s.m65.p (s.peekW a)).2 }).visible ∧
      OnlyCpu65AndMem s t ∧ StoresByte s t a.toNat (modifyOp mn s.m65.p (s.peekW a)).1 ∧
      t.busTrace.length = s.busTrace.length + cycleCount mn .zp s := by
  obtain ⟨h65, ht⟩ := h
  simp only [State.effectiveAddr, Option.some.injEq, State.zpPointer] at ha
  subst ha
  simp only [onlyCpu65_iff, onlyCpu65AndMem_iff, StoresByte]
  simp [runInstr65, runCycles, microCycle, hc, memoryCycle, zpCycle, accessRow, ht, h65, zeroPage, writeVal_proj, addCarry_false, peek_writeRow65, Cpu65.visible, Cpu65.finish, State.afterOperand, Mode.length, BitVec.add_assoc, Cpu65.next, Cpu65.ad, cycleCount, -BitVec.toNat_add]
  intro b hb; simp [hb]

theorem runInstr65_m_zpx (mn : Mn) (s : State) (h : s.fetched65) (hc : mn.cls .zpx = .m) (a : Word)
    (ha : s.effectiveAddr .zpx = some a) :
    ∃ t, runInstr65 mn .zpx s = .next t ∧
      t.m65.visible = (Cpu65.finish { s.m65 with pc := s.afterOperand .zpx, p := (modifyOp mn s.m65.p (s.peekW a)).2 }).visible ∧
      OnlyCpu65AndMem s t ∧ StoresByte s t a.toNat (modifyOp mn s.m65.p (s.peekW a)).1 ∧
      t.busTrace.length = s.busTrace.length + cycleCount mn .zpx s := by
  obtain ⟨h65, ht⟩ := h
  simp only [State.effectiveAddr, Option.some.injEq, State.zpPointer] at ha
  subst ha
  simp only [onlyCpu65_iff, onlyCpu65AndMem_iff, StoresByte]
  simp [runInstr65, runCycles, microCycle, hc, memoryCycle, zpIndexedCycle, accessRow, ht, h65, zeroPage, writeVal_proj, addCarry_false, peek_writeRow65, Cpu65.visible, Cpu65.finish, State.afterOperand, Mode.length, BitVec.add_assoc, Cpu65.next, Cpu65.ad, cycleCount, -BitVec.toNat_add]
  intro b hb; simp [hb]

theorem runInstr65_m_abs (mn : Mn) (s : State) (h : s.fetched65) (hc : mn.cls .abs = .m) (a : Word)
    (ha : s.effectiveAddr .abs = some a) :
    ∃ t, runInstr65 mn .abs s = .next t ∧
      t.m65.visible = (Cpu65.finish { s.m65 with pc := s.afterOperand .abs, p := (modifyOp mn s.m65.p (s.peekW a)).2 }).visible ∧
      OnlyCpu65AndMem s t ∧ StoresByte s t a.toNat (modifyOp mn s.m65.p (s.peekW a)).1 ∧
      t.busTrace.length = s.busTrace.length + cycleCount mn .abs s := by
  obtain ⟨h65, ht⟩ := h
  simp only [State.effectiveAddr, Option.some.injEq, State.zpPointer] at ha
  subst ha
  simp only [onlyCpu65_iff, onlyCpu65AndMem_iff, StoresByte]
  simp [runInstr65, runCycles, microCycle, hc, memoryCycle, absCycle, accessRow, ht, h65, zeroPage, writeVal_proj, addCarry_false, peek_writeRow65, Cpu65.visible, Cpu65.finish, State.afterOperand, Mode.length, BitVec.add_assoc, Cpu65.next, Cpu65.ad, cycleCount, -BitVec.toNat_add]
  intro b hb; simp [hb]

theorem runInstr65_m_abx (mn : Mn) (s : State) (h : s.fetched65) (hc : mn.cls .abx = .m) (a : Word)
    (ha : s.effectiveAddr .abx = some a) :
    ∃ t, runInstr65 mn .abx s = .next t ∧
      t.m65.visible = (Cpu65.finish { s.m65 with pc := s.afterOperand .abx, p := (modifyOp mn s.m65.p (s.peekW a)).2 }).visible ∧
      OnlyCpu65AndMem s t ∧ StoresByte s t a.toNat (modifyOp mn s.m65.p (s.peekW a)).1 ∧
      t.busTrace.length = s.busTrace.length + cycleCount mn .abx s := by
  obtain ⟨h65, ht⟩ := h
  simp only [State.effectiveAddr, Option.some.injEq, State.zpPointer] at ha
  subst ha
  simp only [onlyCpu65_iff, onlyCpu65AndMem_iff, StoresByte]
  cases hx : indexCarry (s.peekW s.m65.pc) s.m65.x
  · simp [runInstr65, runCycles, microCycle, hc, memoryCycle, absIndexedCycle, indexedTail, fixHighRow, accessRow, ht, h65, hx, zeroPage, writeVal_proj, addCarry_false, peek_writeRow65, Cpu65.visible, Cpu65.finish, State.afterOperand, Mode.length, BitVec.add_assoc, Cpu65.next, Cpu65.ad, cycleCount, -BitVec.toNat_add]
    simp only [indexed_noCross hx]
    exact ⟨trivial, by simp, fun b hb => by simp only [if_neg hb]⟩
  · simp [runInstr65, runCycles, microCycle, hc, memoryCycle, absIndexedCycle, indexedTail, fixHighRow, accessRow, ht, h65, hx, zeroPage, writeVal_proj, addCarry_false, peek_writeRow65, Cpu65.visible, Cpu65.finish, State.afterOperand, Mode.length, BitVec.add_assoc, Cpu65.next, Cpu65.ad, cycleCount, -BitVec.toNat_add]
    simp only [indexed_cross hx]
    exact ⟨trivial, by simp, fun b hb => by simp only [if_neg hb]⟩

/-- A class R instruction (40_m65_engine.md R190): `read_op` applied to the byte at the effective address, `PC` after the
operand bytes, nothing else but the record of bus operations, N of which are made (R168). -/
theorem runInstr65_read (mn : Mn) (mode : Mode) (s : State) (h : s.fetched65) (hc : mn.cls mode = .r) (a : Word)
    (ha : s.effectiveAddr mode = some a) :
    ∃ t, runInstr65 mn mode s = .next t ∧
      t.m65.visible = (Cpu65.finish (readOp mn (s.peekW a) { s.m65 with pc := s.afterOperand mode })).visible ∧
      OnlyCpu65 s t ∧ t.busTrace.length = s.busTrace.length + cycleCount mn mode s := by
  cases mode
  case imm => exact runInstr65_r_imm mn s h hc a ha
  case zp => exact runInstr65_r_zp mn s h hc a ha
  case zpx => exact runInstr65_r_zpx mn s h hc a ha
  case zpy => exact runInstr65_r_zpy mn s h hc a ha
  case abs => exact runInstr65_r_abs mn s h hc a ha
  case abx => exact runInstr65_r_abx mn s h hc a ha
  case aby => exact runInstr65_r_aby mn s h hc a ha
  case izx => exact runInstr65_r_izx mn s h hc a ha
  case izy => exact runInstr65_r_izy mn s h hc a ha
  all_goals exact absurd ha (by simp [State.effectiveAddr])

/-- A class W instruction: `write_val` stored at the effective address, no register but `PC` changed. -/
theorem runInstr65_write (mn : Mn) (mode : Mode) (s : State) (h : s.fetched65) (hc : mn.cls mode = .w)
    (hm : mode ≠ .imm) (a : Word) (ha : s.effectiveAddr mode = some a) :
    ∃ t, runInstr65 mn mode s = .next t ∧
      t.m65.visible = (Cpu65.finish { s.m65 with pc := s.afterOperand mode }).visible ∧
      OnlyCpu65AndMem s t ∧ StoresByte s t a.toNat (writeVal mn s.m65) ∧
      t.busTrace.length = s.busTrace.length + cycleCount mn mode s := by
  cases mode
  case zp => exact runInstr65_w_zp mn s h hc a ha
  case zpx => exact runInstr65_w_zpx mn s h hc a ha
  case zpy => exact runInstr65_w_zpy mn s h hc a ha
  case abs => exact runInstr65_w_abs mn s h hc a ha
  case abx => exact runInstr65_w_abx mn s h hc a ha
  case aby => exact runInstr65_w_aby mn s h hc a ha
  case izx => exact runInstr65_w_izx mn s h hc a ha
  case izy => exact runInstr65_w_izy mn s h hc a ha
  case imm => exact absurd rfl hm
  all_goals exact absurd ha (by simp [State.effectiveAddr])

/-- A class M instruction: `modify_op` applied to the byte at the effective address, the result stored there. -/
theorem runInstr65_modify (mn : Mn) (mode : Mode) (s : State) (h : s.fetched65) (hc : mn.cls mode = .m)
    (hm : mode = .zp ∨ mode = .zpx ∨ mode = .abs ∨ mode = .abx) (a : Word) (ha : s.effectiveAddr mode = some a) :
    ∃ t, runInstr65 mn mode s = .next t ∧
      t.m65.visible =
        (Cpu65.finish { s.m65 with pc := s.afterOperand mode, p := (modifyOp mn s.m65.p (s.peekW a)).2 }).visible ∧
      OnlyCpu65AndMem s t ∧ StoresByte s t a.toNat (modifyOp mn s.m65.p (s.peekW a)).1 ∧
      t.busTrace.length = s.busTrace.length + cycleCount mn mode s := by
  rcases hm with rfl | rfl | rfl | rfl
  · exact runInstr65_m_zp mn s h hc a ha
  · exact runInstr65_m_zpx mn s h hc a ha
  · exact runInstr65_m_abs mn s h hc a ha
  · exact runInstr65_m_abx mn s h hc a ha

/-- A class ACC instruction: `modify_op` applied to `A`. -/
theorem runInstr65_acc (mn : Mn) (s : State) (h : s.fetched65) (hc : mn.cls .acc = .acc) :
    ∃ t, runInstr65 mn .acc s = .next t ∧
      t.m65 = Cpu65.finish { s.m65 with a := (modifyOp mn s.m65.p s.m65.a).1, p := (modifyOp mn s.m65.p s.m65.a).2 } ∧
      OnlyCpu65 s t ∧ t.busTrace.length = s.busTrace.length + 1 := by
  obtain ⟨h65, ht⟩ := h
  simp [onlyCpu65_iff, runInstr65, runCycles, microCycle, hc, accCycle, ht, h65, Cpu65.next, Cpu65.ad, cycleCount, -BitVec.toNat_add]

/-- A class IMP instruction. -/
theorem runInstr65_imp (mn : Mn) (s : State) (h : s.fetched65) (hc : mn.cls .imp = .imp) :
    ∃ t, runInstr65 mn .imp s = .next t ∧ t.m65 = Cpu65.finish (impOp mn s.m65) ∧
      OnlyCpu65 s t ∧ t.busTrace.length = s.busTrace.length + 1 := by
  obtain ⟨h65, ht⟩ := h
  simp [onlyCpu65_iff, runInstr65, runCycles, microCycle, hc, impCycle, ht, h65, Cpu65.next, Cpu65.ad, cycleCount, -BitVec.toNat_add]

/-- A branch (40_m65_engine.md R179): the target when the condition holds, else the address after the instruction. -/
theorem runInstr65_branch (mn : Mn) (s : State) (h : s.fetched65) (hc : mn.cls .rel = .br) :
    ∃ t, runInstr65 mn .rel s = .next t ∧
      t.m65.visible = (Cpu65.finish { s.m65 with
        pc := if branchCond mn s.m65.p then branchTarget (s.m65.pc + 1) (s.peekW s.m65.pc) else s.m65.pc + 1 }).visible ∧
      OnlyCpu65 s t ∧ t.busTrace.length = s.busTrace.length + cycleCount mn .rel s := by
  obtain ⟨h65, ht⟩ := h
  cases hb : branchCond mn s.m65.p
  · simp [onlyCpu65_iff, runInstr65, runCycles, microCycle, hc, relCycle, ht, h65, hb, Cpu65.finish, Cpu65.next, Cpu65.ad, cycleCount, -BitVec.toNat_add]
    rfl
  · by_cases hp : hiByte (branchTarget (s.m65.pc + 1) (s.peekW s.m65.pc)) = hiByte (s.m65.pc + 1)
    · simp only [BitVec.ofNat_eq_ofNat] at hp
      simp [onlyCpu65_iff, runInstr65, runCycles, microCycle, hc, relCycle, ht, h65, hb, hp, Cpu65.finish, Cpu65.visible, Cpu65.next, Cpu65.ad, cycleCount, -BitVec.toNat_add]
      rw [← hp, mkWord_hi_lo]
    · simp only [BitVec.ofNat_eq_ofNat] at hp
      simp [onlyCpu65_iff, runInstr65, runCycles, microCycle, hc, relCycle, ht, h65, hb, hp, Cpu65.finish, Cpu65.visible,
        loByte_mkWord, mkWord_hi_lo, Cpu65.next, Cpu65.ad, cycleCount, -BitVec.toNat_add]

end Sys2Proof.Machine
end

