-- ==== Sys2Proof/Laws/PerInstr.lean ====
section
/-! SUPPORT. Statements about every instruction as syntax, one lemma per constructor. -/

namespace Sys2Proof.Laws

/-- The bytes of the opcode: one on the 6502 family, two on the CHIP-8 family, never more than the whole
instruction (30_encoding.md R120, R130); and exactly the 6502 rows have a mnemonic and an addressing mode. -/
def OpcodeBytes.Statement (i : Instr) : Prop :=
  (encode i).length = (if i.table = .m65 then 1 else 2) ∧ (encode i).length ≤ i.length ∧
    (i.m65.isSome = true ↔ i.table = .m65)

/-- The rows outside R125 have two opcode bytes and no 6502 mnemonic. -/
theorem opcodeBytes_of_c8 {i : Instr} {t : Table} (ht : i.table = t) (hn : t ≠ .m65) (hm : i.m65 = none)
    (h : (encode i).length = 2) (hl : 2 ≤ i.length) : OpcodeBytes.Statement i := by
  simp [OpcodeBytes.Statement, ht, hn, hm, h, hl]

theorem chip8_ne_m65 : Table.chip8 ≠ .m65 := by decide
theorem xochip_ne_m65 : Table.xochip ≠ .m65 := by decide

theorem OpcodeBytes.brk : OpcodeBytes.Statement .brk :=
  ⟨rfl, Nat.le_of_ble_eq_true rfl, fun _ => rfl, fun _ => rfl⟩
theorem OpcodeBytes.oraIzx : OpcodeBytes.Statement .oraIzx :=
  ⟨rfl, Nat.le_of_ble_eq_true rfl, fun _ => rfl, fun _ => rfl⟩
theorem OpcodeBytes.oraZp : OpcodeBytes.Statement .oraZp :=
  ⟨rfl, Nat.le_of_ble_eq_true rfl, fun _ => rfl, fun _ => rfl⟩
theorem OpcodeBytes.aslZp : OpcodeBytes.Statement .aslZp :=
  ⟨rfl, Nat.le_of_ble_eq_true rfl, fun _ => rfl, fun _ => rfl⟩
theorem OpcodeBytes.php : OpcodeBytes.Statement .php :=
  ⟨rfl, Nat.le_of_ble_eq_true rfl, fun _ => rfl, fun _ => rfl⟩
theorem OpcodeBytes.oraImm : OpcodeBytes.Statement .oraImm :=
  ⟨rfl, Nat.le_of_ble_eq_true rfl, fun _ => rfl, fun _ => rfl⟩
theorem OpcodeBytes.aslAcc : OpcodeBytes.Statement .aslAcc :=
  ⟨rfl, Nat.le_of_ble_eq_true rfl, fun _ => rfl, fun _ => rfl⟩
theorem OpcodeBytes.oraAbs : OpcodeBytes.Statement .oraAbs :=
  ⟨rfl, Nat.le_of_ble_eq_true rfl, fun _ => rfl, fun _ => rfl⟩
theorem OpcodeBytes.aslAbs : OpcodeBytes.Statement .aslAbs :=
  ⟨rfl, Nat.le_of_ble_eq_true rfl, fun _ => rfl, fun _ => rfl⟩
theorem OpcodeBytes.bpl : OpcodeBytes.Statement .bpl :=
  ⟨rfl, Nat.le_of_ble_eq_true rfl, fun _ => rfl, fun _ => rfl⟩
theorem OpcodeBytes.oraIzy : OpcodeBytes.Statement .oraIzy :=
  ⟨rfl, Nat.le_of_ble_eq_true rfl, fun _ => rfl, fun _ => rfl⟩
theorem OpcodeBytes.oraZpx : OpcodeBytes.Statement .oraZpx :=
  ⟨rfl, Nat.le_of_ble_eq_true rfl, fun _ => rfl, fun _ => rfl⟩
theorem OpcodeBytes.aslZpx : OpcodeBytes.Statement .aslZpx :=
  ⟨rfl, Nat.le_of_ble_eq_true rfl, fun _ => rfl, fun _ => rfl⟩
theorem OpcodeBytes.clc : OpcodeBytes.Statement .clc :=
  ⟨rfl, Nat.le_of_ble_eq_true rfl, fun _ => rfl, fun _ => rfl⟩
theorem OpcodeBytes.oraAby : OpcodeBytes.Statement .oraAby :=
  ⟨rfl, Nat.le_of_ble_eq_true rfl, fun _ => rfl, fun _ => rfl⟩
theorem OpcodeBytes.oraAbx : OpcodeBytes.Statement .oraAbx :=
  ⟨rfl, Nat.le_of_ble_eq_true rfl, fun _ => rfl, fun _ => rfl⟩
theorem OpcodeBytes.aslAbx : OpcodeBytes.Statement .aslAbx :=
  ⟨rfl, Nat.le_of_ble_eq_true rfl, fun _ => rfl, fun _ => rfl⟩
theorem OpcodeBytes.jsr : OpcodeBytes.Statement .jsr :=
  ⟨rfl, Nat.le_of_ble_eq_true rfl, fun _ => rfl, fun _ => rfl⟩
theorem OpcodeBytes.andIzx : OpcodeBytes.Statement .andIzx :=
  ⟨rfl, Nat.le_of_ble_eq_true rfl, fun _ => rfl, fun _ => rfl⟩
theorem OpcodeBytes.bitZp : OpcodeBytes.Statement .bitZp :=
  ⟨rfl, Nat.le_of_ble_eq_true rfl, fun _ => rfl, fun _ => rfl⟩
theorem OpcodeBytes.andZp : OpcodeBytes.Statement .andZp :=
  ⟨rfl, Nat.le_of_ble_eq_true rfl, fun _ => rfl, fun _ => rfl⟩
theorem OpcodeBytes.rolZp : OpcodeBytes.Statement .rolZp :=
  ⟨rfl, Nat.le_of_ble_eq_true rfl, fun _ => rfl, fun _ => rfl⟩
theorem OpcodeBytes.plp : OpcodeBytes.Statement .plp :=
  ⟨rfl, Nat.le_of_ble_eq_true rfl, fun _ => rfl, fun _ => rfl⟩
theorem OpcodeBytes.andImm : OpcodeBytes.Statement .andImm :=
  ⟨rfl, Nat.le_of_ble_eq_true rfl, fun _ => rfl, fun _ => rfl⟩
theorem OpcodeBytes.rolAcc : OpcodeBytes.Statement .rolAcc :=
  ⟨rfl, Nat.le_of_ble_eq_true rfl, fun _ => rfl, fun _ => rfl⟩
theorem OpcodeBytes.bitAbs : OpcodeBytes.Statement .bitAbs :=
  ⟨rfl, Nat.le_of_ble_eq_true rfl, fun _ => rfl, fun _ => rfl⟩
theorem OpcodeBytes.andAbs : OpcodeBytes.Statement .andAbs :=
  ⟨rfl, Nat.le_of_ble_eq_true rfl, fun _ => rfl, fun _ => rfl⟩
theorem OpcodeBytes.rolAbs : OpcodeBytes.Statement .rolAbs :=
  ⟨rfl, Nat.le_of_ble_eq_true rfl, fun _ => rfl, fun _ => rfl⟩
theorem OpcodeBytes.bmi : OpcodeBytes.Statement .bmi :=
  ⟨rfl, Nat.le_of_ble_eq_true rfl, fun _ => rfl, fun _ => rfl⟩
theorem OpcodeBytes.andIzy : OpcodeBytes.Statement .andIzy :=
  ⟨rfl, Nat.le_of_ble_eq_true rfl, fun _ => rfl, fun _ => rfl⟩
theorem OpcodeBytes.andZpx : OpcodeBytes.Statement .andZpx :=
  ⟨rfl, Nat.le_of_ble_eq_true rfl, fun _ => rfl, fun _ => rfl⟩
theorem OpcodeBytes.rolZpx : OpcodeBytes.Statement .rolZpx :=
  ⟨rfl, Nat.le_of_ble_eq_true rfl, fun _ => rfl, fun _ => rfl⟩
theorem OpcodeBytes.sec : OpcodeBytes.Statement .sec :=
  ⟨rfl, Nat.le_of_ble_eq_true rfl, fun _ => rfl, fun _ => rfl⟩
theorem OpcodeBytes.andAby : OpcodeBytes.Statement .andAby :=
  ⟨rfl, Nat.le_of_ble_eq_true rfl, fun _ => rfl, fun _ => rfl⟩
theorem OpcodeBytes.andAbx : OpcodeBytes.Statement .andAbx :=
  ⟨rfl, Nat.le_of_ble_eq_true rfl, fun _ => rfl, fun _ => rfl⟩
theorem OpcodeBytes.rolAbx : OpcodeBytes.Statement .rolAbx :=
  ⟨rfl, Nat.le_of_ble_eq_true rfl, fun _ => rfl, fun _ => rfl⟩
theorem OpcodeBytes.rti : OpcodeBytes.Statement .rti :=
  ⟨rfl, Nat.le_of_ble_eq_true rfl, fun _ => rfl, fun _ => rfl⟩
theorem OpcodeBytes.eorIzx : OpcodeBytes.Statement .eorIzx :=
  ⟨rfl, Nat.le_of_ble_eq_true rfl, fun _ => rfl, fun _ => rfl⟩
theorem OpcodeBytes.eorZp : OpcodeBytes.Statement .eorZp :=
  ⟨rfl, Nat.le_of_ble_eq_true rfl, fun _ => rfl, fun _ => rfl⟩
theorem OpcodeBytes.lsrZp : OpcodeBytes.Statement .lsrZp :=
  ⟨rfl, Nat.le_of_ble_eq_true rfl, fun _ => rfl, fun _ => rfl⟩
theorem OpcodeBytes.pha : OpcodeBytes.Statement .pha :=
  ⟨rfl, Nat.le_of_ble_eq_true rfl, fun _ => rfl, fun _ => rfl⟩
theorem OpcodeBytes.eorImm : OpcodeBytes.Statement .eorImm :=
  ⟨rfl, Nat.le_of_ble_eq_true rfl, fun _ => rfl, fun _ => rfl⟩
theorem OpcodeBytes.lsrAcc : OpcodeBytes.Statement .lsrAcc :=
  ⟨rfl, Nat.le_of_ble_eq_true rfl, fun _ => rfl, fun _ => rfl⟩
theorem OpcodeBytes.jmpAbs : OpcodeBytes.Statement .jmpAbs :=
  ⟨rfl, Nat.le_of_ble_eq_true rfl, fun _ => rfl, fun _ => rfl⟩
theorem OpcodeBytes.eorAbs : OpcodeBytes.Statement .eorAbs :=
  ⟨rfl, Nat.le_of_ble_eq_true rfl, fun _ => rfl, fun _ => rfl⟩
theorem OpcodeBytes.lsrAbs : OpcodeBytes.Statement .lsrAbs :=
  ⟨rfl, Nat.le_of_ble_eq_true rfl, fun _ => rfl, fun _ => rfl⟩
theorem OpcodeBytes.bvc : OpcodeBytes.Statement .bvc :=
  ⟨rfl, Nat.le_of_ble_eq_true rfl, fun _ => rfl, fun _ => rfl⟩
theorem OpcodeBytes.eorIzy : OpcodeBytes.Statement .eorIzy :=
  ⟨rfl, Nat.le_of_ble_eq_true rfl, fun _ => rfl, fun _ => rfl⟩
theorem OpcodeBytes.eorZpx : OpcodeBytes.Statement .eorZpx :=
  ⟨rfl, Nat.le_of_ble_eq_true rfl, fun _ => rfl, fun _ => rfl⟩
theorem OpcodeBytes.lsrZpx : OpcodeBytes.Statement .lsrZpx :=
  ⟨rfl, Nat.le_of_ble_eq_true rfl, fun _ => rfl, fun _ => rfl⟩
theorem OpcodeBytes.cli : OpcodeBytes.Statement .cli :=
  ⟨rfl, Nat.le_of_ble_eq_true rfl, fun _ => rfl, fun _ => rfl⟩
theorem OpcodeBytes.eorAby : OpcodeBytes.Statement .eorAby :=
  ⟨rfl, Nat.le_of_ble_eq_true rfl, fun _ => rfl, fun _ => rfl⟩
theorem OpcodeBytes.eorAbx : OpcodeBytes.Statement .eorAbx :=
  ⟨rfl, Nat.le_of_ble_eq_true rfl, fun _ => rfl, fun _ => rfl⟩
theorem OpcodeBytes.lsrAbx : OpcodeBytes.Statement .lsrAbx :=
  ⟨rfl, Nat.le_of_ble_eq_true rfl, fun _ => rfl, fun _ => rfl⟩
theorem OpcodeBytes.rts : OpcodeBytes.Statement .rts :=
  ⟨rfl, Nat.le_of_ble_eq_true rfl, fun _ => rfl, fun _ => rfl⟩
theorem OpcodeBytes.adcIzx : OpcodeBytes.Statement .adcIzx :=
  ⟨rfl, Nat.le_of_ble_eq_true rfl, fun _ => rfl, fun _ => rfl⟩
theorem OpcodeBytes.adcZp : OpcodeBytes.Statement .adcZp :=
  ⟨rfl, Nat.le_of_ble_eq_true rfl, fun _ => rfl, fun _ => rfl⟩
theorem OpcodeBytes.rorZp : OpcodeBytes.Statement .rorZp :=
  ⟨rfl, Nat.le_of_ble_eq_true rfl, fun _ => rfl, fun _ => rfl⟩
theorem OpcodeBytes.pla : OpcodeBytes.Statement .pla :=
  ⟨rfl, Nat.le_of_ble_eq_true rfl, fun _ => rfl, fun _ => rfl⟩
theorem OpcodeBytes.adcImm : OpcodeBytes.Statement .adcImm :=
  ⟨rfl, Nat.le_of_ble_eq_true rfl, fun _ => rfl, fun _ => rfl⟩
theorem OpcodeBytes.rorAcc : OpcodeBytes.Statement .rorAcc :=
  ⟨rfl, Nat.le_of_ble_eq_true rfl, fun _ => rfl, fun _ => rfl⟩
theorem OpcodeBytes.jmpInd : OpcodeBytes.Statement .jmpInd :=
  ⟨rfl, Nat.le_of_ble_eq_true rfl, fun _ => rfl, fun _ => rfl⟩
theorem OpcodeBytes.adcAbs : OpcodeBytes.Statement .adcAbs :=
  ⟨rfl, Nat.le_of_ble_eq_true rfl, fun _ => rfl, fun _ => rfl⟩
theorem OpcodeBytes.rorAbs : OpcodeBytes.Statement .rorAbs :=
  ⟨rfl, Nat.le_of_ble_eq_true rfl, fun _ => rfl, fun _ => rfl⟩
theorem OpcodeBytes.bvs : OpcodeBytes.Statement .bvs :=
  ⟨rfl, Nat.le_of_ble_eq_true rfl, fun _ => rfl, fun _ => rfl⟩
theorem OpcodeBytes.adcIzy : OpcodeBytes.Statement .adcIzy :=
  ⟨rfl, Nat.le_of_ble_eq_true rfl, fun _ => rfl, fun _ => rfl⟩
theorem OpcodeBytes.adcZpx : OpcodeBytes.Statement .adcZpx :=
  ⟨rfl, Nat.le_of_ble_eq_true rfl, fun _ => rfl, fun _ => rfl⟩
theorem OpcodeBytes.rorZpx : OpcodeBytes.Statement .rorZpx :=
  ⟨rfl, Nat.le_of_ble_eq_true rfl, fun _ => rfl, fun _ => rfl⟩
theorem OpcodeBytes.sei : OpcodeBytes.Statement .sei :=
  ⟨rfl, Nat.le_of_ble_eq_true rfl, fun _ => rfl, fun _ => rfl⟩
theorem OpcodeBytes.adcAby : OpcodeBytes.Statement .adcAby :=
  ⟨rfl, Nat.le_of_ble_eq_true rfl, fun _ => rfl, fun _ => rfl⟩
theorem OpcodeBytes.adcAbx : OpcodeBytes.Statement .adcAbx :=
  ⟨rfl, Nat.le_of_ble_eq_true rfl, fun _ => rfl, fun _ => rfl⟩
theorem OpcodeBytes.rorAbx : OpcodeBytes.Statement .rorAbx :=
  ⟨rfl, Nat.le_of_ble_eq_true rfl, fun _ => rfl, fun _ => rfl⟩
theorem OpcodeBytes.staIzx : OpcodeBytes.Statement .staIzx :=
  ⟨rfl, Nat.le_of_ble_eq_true rfl, fun _ => rfl, fun _ => rfl⟩
theorem OpcodeBytes.styZp : OpcodeBytes.Statement .styZp :=
  ⟨rfl, Nat.le_of_ble_eq_true rfl, fun _ => rfl, fun _ => rfl⟩
theorem OpcodeBytes.staZp : OpcodeBytes.Statement .staZp :=
  ⟨rfl, Nat.le_of_ble_eq_true rfl, fun _ => rfl, fun _ => rfl⟩
theorem OpcodeBytes.stxZp : OpcodeBytes.Statement .stxZp :=
  ⟨rfl, Nat.le_of_ble_eq_true rfl, fun _ => rfl, fun _ => rfl⟩
theorem OpcodeBytes.dey : OpcodeBytes.Statement .dey :=
  ⟨rfl, Nat.le_of_ble_eq_true rfl, fun _ => rfl, fun _ => rfl⟩
theorem OpcodeBytes.txa : OpcodeBytes.Statement .txa :=
  ⟨rfl, Nat.le_of_ble_eq_true rfl, fun _ => rfl, fun _ => rfl⟩
theorem OpcodeBytes.styAbs : OpcodeBytes.Statement .styAbs :=
  ⟨rfl, Nat.le_of_ble_eq_true rfl, fun _ => rfl, fun _ => rfl⟩
theorem OpcodeBytes.staAbs : OpcodeBytes.Statement .staAbs :=
  ⟨rfl, Nat.le_of_ble_eq_true rfl, fun _ => rfl, fun _ => rfl⟩
theorem OpcodeBytes.stxAbs : OpcodeBytes.Statement .stxAbs :=
  ⟨rfl, Nat.le_of_ble_eq_true rfl, fun _ => rfl, fun _ => rfl⟩
theorem OpcodeBytes.bcc : OpcodeBytes.Statement .bcc :=
  ⟨rfl, Nat.le_of_ble_eq_true rfl, fun _ => rfl, fun _ => rfl⟩
theorem OpcodeBytes.staIzy : OpcodeBytes.Statement .staIzy :=
  ⟨rfl, Nat.le_of_ble_eq_true rfl, fun _ => rfl, fun _ => rfl⟩
theorem OpcodeBytes.styZpx : OpcodeBytes.Statement .styZpx :=
  ⟨rfl, Nat.le_of_ble_eq_true rfl, fun _ => rfl, fun _ => rfl⟩
theorem OpcodeBytes.staZpx : OpcodeBytes.Statement .staZpx :=
  ⟨rfl, Nat.le_of_ble_eq_true rfl, fun _ => rfl, fun _ => rfl⟩
theorem OpcodeBytes.stxZpy : OpcodeBytes.Statement .stxZpy :=
  ⟨rfl, Nat.le_of_ble_eq_true rfl, fun _ => rfl, fun _ => rfl⟩
theorem OpcodeBytes.tya : OpcodeBytes.Statement .tya :=
  ⟨rfl, Nat.le_of_ble_eq_true rfl, fun _ => rfl, fun _ => rfl⟩
theorem OpcodeBytes.staAby : OpcodeBytes.Statement .staAby :=
  ⟨rfl, Nat.le_of_ble_eq_true rfl, fun _ => rfl, fun _ => rfl⟩
theorem OpcodeBytes.txs : OpcodeBytes.Statement .txs :=
  ⟨rfl, Nat.le_of_ble_eq_true rfl, fun _ => rfl, fun _ => rfl⟩
theorem OpcodeBytes.staAbx : OpcodeBytes.Statement .staAbx :=
  ⟨rfl, Nat.le_of_ble_eq_true rfl, fun _ => rfl, fun _ => rfl⟩
theorem OpcodeBytes.ldyImm : OpcodeBytes.Statement .ldyImm :=
  ⟨rfl, Nat.le_of_ble_eq_true rfl, fun _ => rfl, fun _ => rfl⟩
theorem OpcodeBytes.ldaIzx : OpcodeBytes.Statement .ldaIzx :=
  ⟨rfl, Nat.le_of_ble_eq_true rfl, fun _ => rfl, fun _ => rfl⟩
theorem OpcodeBytes.ldxImm : OpcodeBytes.Statement .ldxImm :=
  ⟨rfl, Nat.le_of_ble_eq_true rfl, fun _ => rfl, fun _ => rfl⟩
theorem OpcodeBytes.ldyZp : OpcodeBytes.Statement .ldyZp :=
  ⟨rfl, Nat.le_of_ble_eq_true rfl, fun _ => rfl, fun _ => rfl⟩
theorem OpcodeBytes.ldaZp : OpcodeBytes.Statement .ldaZp :=
  ⟨rfl, Nat.le_of_ble_eq_true rfl, fun _ => rfl, fun _ => rfl⟩
theorem OpcodeBytes.ldxZp : OpcodeBytes.Statement .ldxZp :=
  ⟨rfl, Nat.le_of_ble_eq_true rfl, fun _ => rfl, fun _ => rfl⟩
theorem OpcodeBytes.tay : OpcodeBytes.Statement .tay :=
  ⟨rfl, Nat.le_of_ble_eq_true rfl, fun _ => rfl, fun _ => rfl⟩
theorem OpcodeBytes.ldaImm : OpcodeBytes.Statement .ldaImm :=
  ⟨rfl, Nat.le_of_ble_eq_true rfl, fun _ => rfl, fun _ => rfl⟩
theorem OpcodeBytes.tax : OpcodeBytes.Statement .tax :=
  ⟨rfl, Nat.le_of_ble_eq_true rfl, fun _ => rfl, fun _ => rfl⟩
theorem OpcodeBytes.ldyAbs : OpcodeBytes.Statement .ldyAbs :=
  ⟨rfl, Nat.le_of_ble_eq_true rfl, fun _ => rfl, fun _ => rfl⟩
theorem OpcodeBytes.ldaAbs : OpcodeBytes.Statement .ldaAbs :=
  ⟨rfl, Nat.le_of_ble_eq_true rfl, fun _ => rfl, fun _ => rfl⟩
theorem OpcodeBytes.ldxAbs : OpcodeBytes.Statement .ldxAbs :=
  ⟨rfl, Nat.le_of_ble_eq_true rfl, fun _ => rfl, fun _ => rfl⟩
theorem OpcodeBytes.bcs : OpcodeBytes.Statement .bcs :=
  ⟨rfl, Nat.le_of_ble_eq_true rfl, fun _ => rfl, fun _ => rfl⟩
theorem OpcodeBytes.ldaIzy : OpcodeBytes.Statement .ldaIzy :=
  ⟨rfl, Nat.le_of_ble_eq_true rfl, fun _ => rfl, fun _ => rfl⟩
theorem OpcodeBytes.ldyZpx : OpcodeBytes.Statement .ldyZpx :=
  ⟨rfl, Nat.le_of_ble_eq_true rfl, fun _ => rfl, fun _ => rfl⟩
theorem OpcodeBytes.ldaZpx : OpcodeBytes.Statement .ldaZpx :=
  ⟨rfl, Nat.le_of_ble_eq_true rfl, fun _ => rfl, fun _ => rfl⟩
theorem OpcodeBytes.ldxZpy : OpcodeBytes.Statement .ldxZpy :=
  ⟨rfl, Nat.le_of_ble_eq_true rfl, fun _ => rfl, fun _ => rfl⟩
theorem OpcodeBytes.clv : OpcodeBytes.Statement .clv :=
  ⟨rfl, Nat.le_of_ble_eq_true rfl, fun _ => rfl, fun _ => rfl⟩
theorem OpcodeBytes.ldaAby : OpcodeBytes.Statement .ldaAby :=
  ⟨rfl, Nat.le_of_ble_eq_true rfl, fun _ => rfl, fun _ => rfl⟩
theorem OpcodeBytes.tsx : OpcodeBytes.Statement .tsx :=
  ⟨rfl, Nat.le_of_ble_eq_true rfl, fun _ => rfl, fun _ => rfl⟩
theorem OpcodeBytes.ldyAbx : OpcodeBytes.Statement .ldyAbx :=
  ⟨rfl, Nat.le_of_ble_eq_true rfl, fun _ => rfl, fun _ => rfl⟩
theorem OpcodeBytes.ldaAbx : OpcodeBytes.Statement .ldaAbx :=
  ⟨rfl, Nat.le_of_ble_eq_true rfl, fun _ => rfl, fun _ => rfl⟩
theorem OpcodeBytes.ldxAby : OpcodeBytes.Statement .ldxAby :=
  ⟨rfl, Nat.le_of_ble_eq_true rfl, fun _ => rfl, fun _ => rfl⟩
theorem OpcodeBytes.cpyImm : OpcodeBytes.Statement .cpyImm :=
  ⟨rfl, Nat.le_of_ble_eq_true rfl, fun _ => rfl, fun _ => rfl⟩
theorem OpcodeBytes.cmpIzx : OpcodeBytes.Statement .cmpIzx :=
  ⟨rfl, Nat.le_of_ble_eq_true rfl, fun _ => rfl, fun _ => rfl⟩
theorem OpcodeBytes.cpyZp : OpcodeBytes.Statement .cpyZp :=
  ⟨rfl, Nat.le_of_ble_eq_true rfl, fun _ => rfl, fun _ => rfl⟩
theorem OpcodeBytes.cmpZp : OpcodeBytes.Statement .cmpZp :=
  ⟨rfl, Nat.le_of_ble_eq_true rfl, fun _ => rfl, fun _ => rfl⟩
theorem OpcodeBytes.decZp : OpcodeBytes.Statement .decZp :=
  ⟨rfl, Nat.le_of_ble_eq_true rfl, fun _ => rfl, fun _ => rfl⟩
theorem OpcodeBytes.iny : OpcodeBytes.Statement .iny :=
  ⟨rfl, Nat.le_of_ble_eq_true rfl, fun _ => rfl, fun _ => rfl⟩
theorem OpcodeBytes.cmpImm : OpcodeBytes.Statement .cmpImm :=
  ⟨rfl, Nat.le_of_ble_eq_true rfl, fun _ => rfl, fun _ => rfl⟩
theorem OpcodeBytes.dex : OpcodeBytes.Statement .dex :=
  ⟨rfl, Nat.le_of_ble_eq_true rfl, fun _ => rfl, fun _ => rfl⟩
theorem OpcodeBytes.cpyAbs : OpcodeBytes.Statement .cpyAbs :=
  ⟨rfl, Nat.le_of_ble_eq_true rfl, fun _ => rfl, fun _ => rfl⟩
theorem OpcodeBytes.cmpAbs : OpcodeBytes.Statement .cmpAbs :=
  ⟨rfl, Nat.le_of_ble_eq_true rfl, fun _ => rfl, fun _ => rfl⟩
theorem OpcodeBytes.decAbs : OpcodeBytes.Statement .decAbs :=
  ⟨rfl, Nat.le_of_ble_eq_true rfl, fun _ => rfl, fun _ => rfl⟩
theorem OpcodeBytes.bne : OpcodeBytes.Statement .bne :=
  ⟨rfl, Nat.le_of_ble_eq_true rfl, fun _ => rfl, fun _ => rfl⟩
theorem OpcodeBytes.cmpIzy : OpcodeBytes.Statement .cmpIzy :=
  ⟨rfl, Nat.le_of_ble_eq_true rfl, fun _ => rfl, fun _ => rfl⟩
theorem OpcodeBytes.cmpZpx : OpcodeBytes.Statement .cmpZpx :=
  ⟨rfl, Nat.le_of_ble_eq_true rfl, fun _ => rfl, fun _ => rfl⟩
theorem OpcodeBytes.decZpx : OpcodeBytes.Statement .decZpx :=
  ⟨rfl, Nat.le_of_ble_eq_true rfl, fun _ => rfl, fun _ => rfl⟩
theorem OpcodeBytes.cld : OpcodeBytes.Statement .cld :=
  ⟨rfl, Nat.le_of_ble_eq_true rfl, fun _ => rfl, fun _ => rfl⟩
theorem OpcodeBytes.cmpAby : OpcodeBytes.Statement .cmpAby :=
  ⟨rfl, Nat.le_of_ble_eq_true rfl, fun _ => rfl, fun _ => rfl⟩
theorem OpcodeBytes.cmpAbx : OpcodeBytes.Statement .cmpAbx :=
  ⟨rfl, Nat.le_of_ble_eq_true rfl, fun _ => rfl, fun _ => rfl⟩
theorem OpcodeBytes.decAbx : OpcodeBytes.Statement .decAbx :=
  ⟨rfl, Nat.le_of_ble_eq_true rfl, fun _ => rfl, fun _ => rfl⟩
theorem OpcodeBytes.cpxImm : OpcodeBytes.Statement .cpxImm :=
  ⟨rfl, Nat.le_of_ble_eq_true rfl, fun _ => rfl, fun _ => rfl⟩
theorem OpcodeBytes.sbcIzx : OpcodeBytes.Statement .sbcIzx :=
  ⟨rfl, Nat.le_of_ble_eq_true rfl, fun _ => rfl, fun _ => rfl⟩
theorem OpcodeBytes.cpxZp : OpcodeBytes.Statement .cpxZp :=
  ⟨rfl, Nat.le_of_ble_eq_true rfl, fun _ => rfl, fun _ => rfl⟩
theorem OpcodeBytes.sbcZp : OpcodeBytes.Statement .sbcZp :=
  ⟨rfl, Nat.le_of_ble_eq_true rfl, fun _ => rfl, fun _ => rfl⟩
theorem OpcodeBytes.incZp : OpcodeBytes.Statement .incZp :=
  ⟨rfl, Nat.le_of_ble_eq_true rfl, fun _ => rfl, fun _ => rfl⟩
theorem OpcodeBytes.inx : OpcodeBytes.Statement .inx :=
  ⟨rfl, Nat.le_of_ble_eq_true rfl, fun _ => rfl, fun _ => rfl⟩
theorem OpcodeBytes.sbcImm : OpcodeBytes.Statement .sbcImm :=
  ⟨rfl, Nat.le_of_ble_eq_true rfl, fun _ => rfl, fun _ => rfl⟩
theorem OpcodeBytes.nop : OpcodeBytes.Statement .nop :=
  ⟨rfl, Nat.le_of_ble_eq_true rfl, fun _ => rfl, fun _ => rfl⟩
theorem OpcodeBytes.cpxAbs : OpcodeBytes.Statement .cpxAbs :=
  ⟨rfl, Nat.le_of_ble_eq_true rfl, fun _ => rfl, fun _ => rfl⟩
theorem OpcodeBytes.sbcAbs : OpcodeBytes.Statement .sbcAbs :=
  ⟨rfl, Nat.le_of_ble_eq_true rfl, fun _ => rfl, fun _ => rfl⟩
theorem OpcodeBytes.incAbs : OpcodeBytes.Statement .incAbs :=
  ⟨rfl, Nat.le_of_ble_eq_true rfl, fun _ => rfl, fun _ => rfl⟩
theorem OpcodeBytes.beq : OpcodeBytes.Statement .beq :=
  ⟨rfl, Nat.le_of_ble_eq_true rfl, fun _ => rfl, fun _ => rfl⟩
theorem OpcodeBytes.sbcIzy : OpcodeBytes.Statement .sbcIzy :=
  ⟨rfl, Nat.le_of_ble_eq_true rfl, fun _ => rfl, fun _ => rfl⟩
theorem OpcodeBytes.sbcZpx : OpcodeBytes.Statement .sbcZpx :=
  ⟨rfl, Nat.le_of_ble_eq_true rfl, fun _ => rfl, fun _ => rfl⟩
theorem OpcodeBytes.incZpx : OpcodeBytes.Statement .incZpx :=
  ⟨rfl, Nat.le_of_ble_eq_true rfl, fun _ => rfl, fun _ => rfl⟩
theorem OpcodeBytes.sed : OpcodeBytes.Statement .sed :=
  ⟨rfl, Nat.le_of_ble_eq_true rfl, fun _ => rfl, fun _ => rfl⟩
theorem OpcodeBytes.sbcAby : OpcodeBytes.Statement .sbcAby :=
  ⟨rfl, Nat.le_of_ble_eq_true rfl, fun _ => rfl, fun _ => rfl⟩
theorem OpcodeBytes.sbcAbx : OpcodeBytes.Statement .sbcAbx :=
  ⟨rfl, Nat.le_of_ble_eq_true rfl, fun _ => rfl, fun _ => rfl⟩
theorem OpcodeBytes.incAbx : OpcodeBytes.Statement .incAbx :=
  ⟨rfl, Nat.le_of_ble_eq_true rfl, fun _ => rfl, fun _ => rfl⟩
theorem OpcodeBytes.cls : OpcodeBytes.Statement .cls :=
  opcodeBytes_of_c8 rfl chip8_ne_m65 rfl rfl (Nat.le_of_ble_eq_true rfl)
theorem OpcodeBytes.ret : OpcodeBytes.Statement .ret :=
  opcodeBytes_of_c8 rfl chip8_ne_m65 rfl rfl (Nat.le_of_ble_eq_true rfl)
theorem OpcodeBytes.jp (nnn : BitVec 12) : OpcodeBytes.Statement (.jp nnn) :=
  opcodeBytes_of_c8 rfl chip8_ne_m65 rfl rfl (Nat.le_of_ble_eq_true rfl)
theorem OpcodeBytes.call (nnn : BitVec 12) : OpcodeBytes.Statement (.call nnn) :=
  opcodeBytes_of_c8 rfl chip8_ne_m65 rfl rfl (Nat.le_of_ble_eq_true rfl)
theorem OpcodeBytes.seImm (x : BitVec 4) (nn : Byte) : OpcodeBytes.Statement (.seImm x nn) :=
  opcodeBytes_of_c8 rfl chip8_ne_m65 rfl rfl (Nat.le_of_ble_eq_true rfl)
theorem OpcodeBytes.sneImm (x : BitVec 4) (nn : Byte) : OpcodeBytes.Statement (.sneImm x nn) :=
  opcodeBytes_of_c8 rfl chip8_ne_m65 rfl rfl (Nat.le_of_ble_eq_true rfl)
theorem OpcodeBytes.seReg (x : BitVec 4) (y : BitVec 4) : OpcodeBytes.Statement (.seReg x y) :=
  opcodeBytes_of_c8 rfl chip8_ne_m65 rfl rfl (Nat.le_of_ble_eq_true rfl)
theorem OpcodeBytes.ldImm (x : BitVec 4) (nn : Byte) : OpcodeBytes.Statement (.ldImm x nn) :=
  opcodeBytes_of_c8 rfl chip8_ne_m65 rfl rfl (Nat.le_of_ble_eq_true rfl)
theorem OpcodeBytes.addImm (x : BitVec 4) (nn : Byte) : OpcodeBytes.Statement (.addImm x nn) :=
  opcodeBytes_of_c8 rfl chip8_ne_m65 rfl rfl (Nat.le_of_ble_eq_true rfl)
theorem OpcodeBytes.ldReg (x : BitVec 4) (y : BitVec 4) : OpcodeBytes.Statement (.ldReg x y) :=
  opcodeBytes_of_c8 rfl chip8_ne_m65 rfl rfl (Nat.le_of_ble_eq_true rfl)
theorem OpcodeBytes.orReg (x : BitVec 4) (y : BitVec 4) : OpcodeBytes.Statement (.orReg x y) :=
  opcodeBytes_of_c8 rfl chip8_ne_m65 rfl rfl (Nat.le_of_ble_eq_true rfl)
theorem OpcodeBytes.andReg (x : BitVec 4) (y : BitVec 4) : OpcodeBytes.Statement (.andReg x y) :=
  opcodeBytes_of_c8 rfl chip8_ne_m65 rfl rfl (Nat.le_of_ble_eq_true rfl)
theorem OpcodeBytes.xorReg (x : BitVec 4) (y : BitVec 4) : OpcodeBytes.Statement (.xorReg x y) :=
  opcodeBytes_of_c8 rfl chip8_ne_m65 rfl rfl (Nat.le_of_ble_eq_true rfl)
theorem OpcodeBytes.addReg (x : BitVec 4) (y : BitVec 4) : OpcodeBytes.Statement (.addReg x y) :=
  opcodeBytes_of_c8 rfl chip8_ne_m65 rfl rfl (Nat.le_of_ble_eq_true rfl)
theorem OpcodeBytes.subReg (x : BitVec 4) (y : BitVec 4) : OpcodeBytes.Statement (.subReg x y) :=
  opcodeBytes_of_c8 rfl chip8_ne_m65 rfl rfl (Nat.le_of_ble_eq_true rfl)
theorem OpcodeBytes.shrReg (x : BitVec 4) (y : BitVec 4) : OpcodeBytes.Statement (.shrReg x y) :=
  opcodeBytes_of_c8 rfl chip8_ne_m65 rfl rfl (Nat.le_of_ble_eq_true rfl)
theorem OpcodeBytes.subnReg (x : BitVec 4) (y : BitVec 4) : OpcodeBytes.Statement (.subnReg x y) :=
  opcodeBytes_of_c8 rfl chip8_ne_m65 rfl rfl (Nat.le_of_ble_eq_true rfl)
theorem OpcodeBytes.shlReg (x : BitVec 4) (y : BitVec 4) : OpcodeBytes.Statement (.shlReg x y) :=
  opcodeBytes_of_c8 rfl chip8_ne_m65 rfl rfl (Nat.le_of_ble_eq_true rfl)
theorem OpcodeBytes.sneReg (x : BitVec 4) (y : BitVec 4) : OpcodeBytes.Statement (.sneReg x y) :=
  opcodeBytes_of_c8 rfl chip8_ne_m65 rfl rfl (Nat.le_of_ble_eq_true rfl)
theorem OpcodeBytes.ldI (nnn : BitVec 12) : OpcodeBytes.Statement (.ldI nnn) :=
  opcodeBytes_of_c8 rfl chip8_ne_m65 rfl rfl (Nat.le_of_ble_eq_true rfl)
theorem OpcodeBytes.jpV0 (nnn : BitVec 12) : OpcodeBytes.Statement (.jpV0 nnn) :=
  opcodeBytes_of_c8 rfl chip8_ne_m65 rfl rfl (Nat.le_of_ble_eq_true rfl)
theorem OpcodeBytes.rnd (x : BitVec 4) (nn : Byte) : OpcodeBytes.Statement (.rnd x nn) :=
  opcodeBytes_of_c8 rfl chip8_ne_m65 rfl rfl (Nat.le_of_ble_eq_true rfl)
theorem OpcodeBytes.drw (x : BitVec 4) (y : BitVec 4) (n : BitVec 4) : OpcodeBytes.Statement (.drw x y n) :=
  opcodeBytes_of_c8 rfl chip8_ne_m65 rfl rfl (Nat.le_of_ble_eq_true rfl)
theorem OpcodeBytes.skp (x : BitVec 4) : OpcodeBytes.Statement (.skp x) :=
  opcodeBytes_of_c8 rfl chip8_ne_m65 rfl rfl (Nat.le_of_ble_eq_true rfl)
theorem OpcodeBytes.sknp (x : BitVec 4) : OpcodeBytes.Statement (.sknp x) :=
  opcodeBytes_of_c8 rfl chip8_ne_m65 rfl rfl (Nat.le_of_ble_eq_true rfl)
theorem OpcodeBytes.ldVxDt (x : BitVec 4) : OpcodeBytes.Statement (.ldVxDt x) :=
  opcodeBytes_of_c8 rfl chip8_ne_m65 rfl rfl (Nat.le_of_ble_eq_true rfl)
theorem OpcodeBytes.ldVxK (x : BitVec 4) : OpcodeBytes.Statement (.ldVxK x) :=
  opcodeBytes_of_c8 rfl chip8_ne_m65 rfl rfl (Nat.le_of_ble_eq_true rfl)
theorem OpcodeBytes.ldDtVx (x : BitVec 4) : OpcodeBytes.Statement (.ldDtVx x) :=
  opcodeBytes_of_c8 rfl chip8_ne_m65 rfl rfl (Nat.le_of_ble_eq_true rfl)
theorem OpcodeBytes.ldStVx (x : BitVec 4) : OpcodeBytes.Statement (.ldStVx x) :=
  opcodeBytes_of_c8 rfl chip8_ne_m65 rfl rfl (Nat.le_of_ble_eq_true rfl)
theorem OpcodeBytes.addI (x : BitVec 4) : OpcodeBytes.Statement (.addI x) :=
  opcodeBytes_of_c8 rfl chip8_ne_m65 rfl rfl (Nat.le_of_ble_eq_true rfl)
theorem OpcodeBytes.ldF (x : BitVec 4) : OpcodeBytes.Statement (.ldF x) :=
  opcodeBytes_of_c8 rfl chip8_ne_m65 rfl rfl (Nat.le_of_ble_eq_true rfl)
theorem OpcodeBytes.ldB (x : BitVec 4) : OpcodeBytes.Statement (.ldB x) :=
  opcodeBytes_of_c8 rfl chip8_ne_m65 rfl rfl (Nat.le_of_ble_eq_true rfl)
theorem OpcodeBytes.ldMemVx (x : BitVec 4) : OpcodeBytes.Statement (.ldMemVx x) :=
  opcodeBytes_of_c8 rfl chip8_ne_m65 rfl rfl (Nat.le_of_ble_eq_true rfl)
theorem OpcodeBytes.ldVxMem (x : BitVec 4) : OpcodeBytes.Statement (.ldVxMem x) :=
  opcodeBytes_of_c8 rfl chip8_ne_m65 rfl rfl (Nat.le_of_ble_eq_true rfl)
theorem OpcodeBytes.scd (n : BitVec 4) : OpcodeBytes.Statement (.scd n) :=
  opcodeBytes_of_c8 rfl xochip_ne_m65 rfl rfl (Nat.le_of_ble_eq_true rfl)
theorem OpcodeBytes.scu (n : BitVec 4) : OpcodeBytes.Statement (.scu n) :=
  opcodeBytes_of_c8 rfl xochip_ne_m65 rfl rfl (Nat.le_of_ble_eq_true rfl)
theorem OpcodeBytes.scr : OpcodeBytes.Statement .scr :=
  opcodeBytes_of_c8 rfl xochip_ne_m65 rfl rfl (Nat.le_of_ble_eq_true rfl)
theorem OpcodeBytes.scl : OpcodeBytes.Statement .scl :=
  opcodeBytes_of_c8 rfl xochip_ne_m65 rfl rfl (Nat.le_of_ble_eq_true rfl)
theorem OpcodeBytes.low : OpcodeBytes.Statement .low :=
  opcodeBytes_of_c8 rfl xochip_ne_m65 rfl rfl (Nat.le_of_ble_eq_true rfl)
theorem OpcodeBytes.high : OpcodeBytes.Statement .high :=
  opcodeBytes_of_c8 rfl xochip_ne_m65 rfl rfl (Nat.le_of_ble_eq_true rfl)
theorem OpcodeBytes.saveRange (x : BitVec 4) (y : BitVec 4) : OpcodeBytes.Statement (.saveRange x y) :=
  opcodeBytes_of_c8 rfl xochip_ne_m65 rfl rfl (Nat.le_of_ble_eq_true rfl)
theorem OpcodeBytes.loadRange (x : BitVec 4) (y : BitVec 4) : OpcodeBytes.Statement (.loadRange x y) :=
  opcodeBytes_of_c8 rfl xochip_ne_m65 rfl rfl (Nat.le_of_ble_eq_true rfl)
theorem OpcodeBytes.ldILong : OpcodeBytes.Statement .ldILong :=
  opcodeBytes_of_c8 rfl xochip_ne_m65 rfl rfl (Nat.le_of_ble_eq_true rfl)
theorem OpcodeBytes.plane (n : BitVec 4) : OpcodeBytes.Statement (.plane n) :=
  opcodeBytes_of_c8 rfl xochip_ne_m65 rfl rfl (Nat.le_of_ble_eq_true rfl)
theorem OpcodeBytes.audio : OpcodeBytes.Statement .audio :=
  opcodeBytes_of_c8 rfl xochip_ne_m65 rfl rfl (Nat.le_of_ble_eq_true rfl)
theorem OpcodeBytes.ldHf (x : BitVec 4) : OpcodeBytes.Statement (.ldHf x) :=
  opcodeBytes_of_c8 rfl xochip_ne_m65 rfl rfl (Nat.le_of_ble_eq_true rfl)
theorem OpcodeBytes.pitch (x : BitVec 4) : OpcodeBytes.Statement (.pitch x) :=
  opcodeBytes_of_c8 rfl xochip_ne_m65 rfl rfl (Nat.le_of_ble_eq_true rfl)
theorem OpcodeBytes.ldRVx (x : BitVec 4) : OpcodeBytes.Statement (.ldRVx x) :=
  opcodeBytes_of_c8 rfl xochip_ne_m65 rfl rfl (Nat.le_of_ble_eq_true rfl)
theorem OpcodeBytes.ldVxR (x : BitVec 4) : OpcodeBytes.Statement (.ldVxR x) :=
  opcodeBytes_of_c8 rfl xochip_ne_m65 rfl rfl (Nat.le_of_ble_eq_true rfl)

end Sys2Proof.Laws
end

