-- ==== Sys2Proof/Laws/Step.lean ====
section
/-! SUPPORT. What the step, the macro-step, the step loop and the host operations can do, said once: the proofs about
runs cite these and unfold none of them. -/

namespace Sys2Proof.Machine

/-- A pending host operation is the step. -/
theorem step_hostOp {s : State} {o : HostOp} {rest : List HostOp} (h : s.hostQueue = o :: rest) :
    step s = runHostOp o { s with hostQueue := rest } := by
  simp [step, h]

/-- With none pending, the step of the 6502 family is one instruction. -/
theorem step_instr65 {s : State} (h : s.hostQueue = []) (ha : s.cfg.arch.is65 = true) : step s = runToReady65 s := by
  simp [step, h, ha]

/-- With none pending, the step of the CHIP-8 family is `tick(1)`. -/
theorem step_instrC8 {s : State} (h : s.hostQueue = []) (ha : s.cfg.arch.is65 = false) : step s = tickC8 1 s := by
  simp [step, h, ha]

/-- A known opcode runs after the fetch. -/
theorem macroStep_ok {s : State} {i : Instr} (h : decodeC8 s.cfg.arch (s.readVal2 s.c8.pc.toNat) = .ok i) :
    macroStep s = exec i s.fetchC8 := by
  simp [macroStep, h]

/-- An unknown opcode is one record after the fetch. -/
theorem macroStep_error {s : State} {e : DecodeError}
    (h : decodeC8 s.cfg.arch (s.readVal2 s.c8.pc.toNat) = .error e) :
    macroStep s = .next (s.fetchC8.raise .unknownOpcode none) := by
  simp [macroStep, h]

/-! ### The halt changes `HALTED` and `DEBUGLOG` and nothing else, and its report shows `HALTED` = 1 (R320, R323, R77) -/

@[simp] theorem State.halt_cfg (s : State) : s.halt.cfg = s.cfg := rfl
@[simp] theorem State.halt_mem (s : State) : s.halt.mem = s.mem := rfl
@[simp] theorem State.halt_m65 (s : State) : s.halt.m65 = s.m65 := rfl
@[simp] theorem State.halt_c8 (s : State) : s.halt.c8 = s.c8 := rfl
@[simp] theorem State.halt_faultLog (s : State) : s.halt.faultLog = s.faultLog := rfl
@[simp] theorem State.halt_busTrace (s : State) : s.halt.busTrace = s.busTrace := rfl
@[simp] theorem State.halt_hostQueue (s : State) : s.halt.hostQueue = s.hostQueue := rfl
@[simp] theorem State.halt_randDraws (s : State) : s.halt.randDraws = s.randDraws := rfl

theorem State.halt_xo {s : State} (ha : s.cfg.arch = .xochip) :
    s.halt.xo = { s.xo with
      halted := true
      debugLog := s.xo.debugLog ++
        [(s.xo.cycles, .xochip s.c8.dump
          { plane := s.xo.plane, hires := s.xo.hires, pitch := s.xo.pitch, cycles := s.xo.cycles, halted := true })] } := by
  simp [State.halt, State.setHalted, State.updXo, State.dumpState, ha]

/-- The halt holds every `tick`. -/
theorem tickC8_halted {s : State} (k : Nat) (ha : s.cfg.arch = .xochip) (h : s.xo.halted = true) :
    tickC8 k s = .next s := by
  cases k <;> simp [tickC8, ha, h]

/-- The breakpoint ends the `tick` that meets it. -/
theorem tickC8_atBreakpoint {s : State} (k : Nat) (hh : ¬ (s.cfg.arch = .xochip ∧ s.xo.halted = true))
    (h : s.atBreakpoint = true) : tickC8 (k + 1) s = .next s.halt := by
  simp only [tickC8, if_neg hh, h, if_true]

/-- A macro-step with nothing in its way: the rest of the budget follows, unless display wait drops it. -/
theorem tickC8_run {s t : State} (k : Nat) (hh : ¬ (s.cfg.arch = .xochip ∧ s.xo.halted = true))
    (h : s.atBreakpoint = false) (hm : macroStep s = .next t) :
    tickC8 (k + 1) s = if t.waitRequested then .next t else tickC8 k t := by
  simp only [tickC8, if_neg hh, h, hm, Bool.false_eq_true, if_false]

/-- `tick(1)` in one line: the halt, the breakpoint, or the macro-step. -/
theorem tickC8_one (s : State) :
    tickC8 1 s =
      if s.cfg.arch = .xochip ∧ s.xo.halted = true then .next s
      else if s.atBreakpoint then .next s.halt
      else macroStep s := by
  simp only [tickC8]
  split
  · rfl
  split
  · rfl
  cases macroStep s <;> simp

/-- Every instruction of the CHIP-8 family answers a next state from every state. -/
theorem exec_c8_next {i : Instr} (h : i.m65 = none) (s : State) : ∃ t, exec i s = .next t := by
  cases i
  case ret => simp only [exec, execRet]; split <;> exact ⟨_, rfl⟩
  case call => simp only [exec, execCall]; split <;> exact ⟨_, rfl⟩
  case cls => simp only [exec, execCls]; split <;> exact ⟨_, rfl⟩
  case ldVxK => simp only [exec, execLdVxK]; split <;> [skip; split] <;> exact ⟨_, rfl⟩
  all_goals first
    | exact ⟨_, rfl⟩
    | exact absurd h (by simp [Instr.m65])

/-- An optional row is no 6502 instruction. -/
def noM65 (o : Option Instr) : Prop := ∀ i ∈ o, i.m65 = none

@[simp] theorem noM65_none : noM65 none := fun _ h => by cases h

theorem noM65_some {i : Instr} (h : i.m65 = none) : noM65 (some i) := fun _ hj => by cases hj; exact h

theorem noM65_ite {p : Prop} [Decidable p] {a b : Option Instr} (ha : noM65 a) (hb : noM65 b) :
    noM65 (if p then a else b) := by
  split <;> assumption

theorem decodeTop0_m65 (a : Arch) (w : Word) : noM65 (decodeTop0 a w) := by
  unfold decodeTop0
  repeat' apply noM65_ite
  all_goals first | exact noM65_some rfl | exact noM65_none

theorem decodeTop5_m65 (a : Arch) (w : Word) : noM65 (decodeTop5 a w) := by
  unfold decodeTop5
  repeat' apply noM65_ite
  all_goals first | exact noM65_some rfl | exact noM65_none

theorem decodeTop8_m65 (w : Word) : noM65 (decodeTop8 w) := by
  unfold decodeTop8
  repeat' apply noM65_ite
  all_goals first | exact noM65_some rfl | exact noM65_none

theorem decodeTopE_m65 (w : Word) : noM65 (decodeTopE w) := by
  unfold decodeTopE
  repeat' apply noM65_ite
  all_goals first | exact noM65_some rfl | exact noM65_none

theorem decodeTopFBase_m65 (w : Word) : noM65 (decodeTopFBase w) := by
  unfold decodeTopFBase
  repeat' apply noM65_ite
  all_goals first | exact noM65_some rfl | exact noM65_none

theorem decodeTopFExt_m65 (w : Word) : noM65 (decodeTopFExt w) := by
  unfold decodeTopFExt
  repeat' apply noM65_ite
  all_goals first | exact noM65_some rfl | exact noM65_none

theorem decodeTopF_m65 (a : Arch) (w : Word) : noM65 (decodeTopF a w) := by
  unfold decodeTopF
  cases h : decodeTopFBase w with
  | some i => exact noM65_some (decodeTopFBase_m65 w i h)
  | none => exact noM65_ite (decodeTopFExt_m65 w) noM65_none

/-- What a CHIP-8 word decodes to is no 6502 instruction. -/
theorem decodeC8_m65 {a : Arch} {w : Word} {i : Instr} (h : decodeC8 a w = .ok i) : i.m65 = none := by
  have hn : noM65 (decodeC8Row a w) := by
    unfold decodeC8Row
    split
    all_goals first
      | exact noM65_some rfl
      | exact decodeTop0_m65 a w
      | exact decodeTop5_m65 a w
      | exact decodeTop8_m65 w
      | exact noM65_ite (noM65_some rfl) noM65_none
      | exact decodeTopE_m65 w
      | exact decodeTopF_m65 a w
  unfold decodeC8 at h
  cases hr : decodeC8Row a w with
  | some j => rw [hr] at h; cases h; exact hn _ hr
  | none => rw [hr] at h; cases h

/-! ## The key latch -/

theorem State.latchesEdge_everyRelease {s : State} (k : BitVec 4) (pressed : Bool) (he : s.cfg.keyEdge = .everyRelease) :
    s.latchesEdge k pressed = (s.keyDown k && !pressed) := by simp [State.latchesEdge, he]

theorem State.latchesEdge_firstInWait {s : State} (k : BitVec 4) (pressed : Bool) (he : s.cfg.keyEdge = .firstInWait) :
    s.latchesEdge k pressed = (s.keyDown k && !pressed && (s.c8.kwWait && !s.c8.kwValid)) := by
  simp [State.latchesEdge, he]

/-- The first release of a key wait is latched under both texts of the spec (R76, D37): they part only at a second release
in one wait and at a release outside a wait, which `LD Vx, K` drops when it arms (R378). -/
theorem State.latchesEdge_first {s : State} (k : BitVec 4) (pressed : Bool) (hw : s.c8.kwWait = true)
    (hv : s.c8.kwValid = false) : s.latchesEdge k pressed = (s.keyDown k && !pressed) := by
  cases he : s.cfg.keyEdge <;> simp [State.latchesEdge, he, hw, hv]

/-- What `setKeyState` can do: it writes the key, and the latch at an edge the instance latches. -/
theorem State.setKeyState_cases (s : State) (k : BitVec 4) (pressed : Bool) :
    (s.latchesEdge k pressed = true ∧ s.setKeyState k pressed =
      { s with c8 := { s.c8 with key := s.c8.key.set k.toNat pressed k.isLt, kwValid := true, kwIndex := k } }) ∨
    (s.latchesEdge k pressed = false ∧ s.setKeyState k pressed =
      { s with c8 := { s.c8 with key := s.c8.key.set k.toNat pressed k.isLt } }) := by
  cases h : s.latchesEdge k pressed <;> simp [State.setKeyState, State.updC8, h]

/-- On an instance that follows D37, `KW_VALID` is set in a key wait only, and `setKeyState` keeps it so. -/
theorem State.setKeyState_keyWait {s : State} (k : BitVec 4) (pressed : Bool) (he : s.cfg.keyEdge = .firstInWait)
    (hi : s.c8.kwValid = true → s.c8.kwWait = true) :
    (s.setKeyState k pressed).c8.kwValid = true → (s.setKeyState k pressed).c8.kwWait = true := by
  rcases s.setKeyState_cases k pressed with ⟨h, e⟩ | ⟨-, e⟩ <;> rw [e]
  · simp only [State.latchesEdge_firstInWait k pressed he, Bool.and_eq_true] at h
    exact fun _ => h.2.1
  · exact hi

/-- Every macro-step answers a next state. -/
theorem macroStep_next (s : State) : ∃ t, macroStep s = .next t := by
  cases h : decodeC8 s.cfg.arch (s.readVal2 s.c8.pc.toNat) with
  | ok i => rw [macroStep_ok h]; exact exec_c8_next (decodeC8_m65 h) _
  | error e => exact ⟨_, macroStep_error h⟩

end Sys2Proof.Machine
end

