-- ==== Sys2Proof/Tests/Slice0.lean ====
section
/-! SUPPORT. The model's own tests: the well-formedness smoke test, every constructor's decoding from a word written out
from the encoding tables (30_encoding.md R125, R135, R136), one-step tests whose expected results are the worked
examples and derived vectors of 95_test_vectors.md, and a witness for the hypotheses of every statement. -/

namespace Sys2Proof.Tests

-- The theorems one after the other: elaborated at once they ask for a thread each.
set_option Elab.async false

open Sys2Proof Sys2Proof.Machine

/-! ## Helpers -/

/-- Store cells in memory, without a bus operation. -/
def place (s : State) (cells : List (Nat × Byte)) : State := cells.foldl (fun u c => u.poke c.1 c.2) s

/-- Consecutive cells. -/
def cellsAt (a : Nat) (bytes : List Byte) : List (Nat × Byte) :=
  (List.range bytes.length).map fun k => (a + k, bytes.getD k 0)

/-- An M6502 after `Reset` with the vector at 0x0200, bytes at `PC`, registers changed by `f` (95_test_vectors.md,
Conventions). -/
def m65 (bytes : List Byte) (f : Cpu65 → Cpu65 := id) (cells : List (Nat × Byte) := []) : State :=
  let s := State.powerOn (Config.standard .m6502)
  let c := f { s.m65 with pc := 0x0200 }
  place { s with m65 := c } (cellsAt c.pc.toNat bytes ++ cells)

/-- A CHIP-8 family instance after `PowerOn` with bytes at 0x200. -/
def c8 (a : Arch) (bytes : List Byte) (f : State → State := id) (cells : List (Nat × Byte) := []) : State :=
  f (place (State.powerOn (Config.standard a)) (cellsAt 0x200 bytes ++ cells))

/-- One step answers a next state with the given property. -/
def next (s : State) (p : State → Bool) : Bool :=
  match step s with
  | .next t => p t
  | .fault _ => false
  | .refused _ => false

/-- The step is refused for the given reason. -/
def refusedWith (s : State) (r : Refusal) : Bool :=
  match step s with
  | .refused q => decide (q = r)
  | .next _ => false
  | .fault _ => false

/-- Set register `V[x]`. -/
def reg (x : BitVec 4) (v : Byte) (s : State) : State := s.setReg x v

/-- Set `I`. -/
def idx (v : Word) (s : State) : State := s.setI v

/-- Set one framebuffer cell. -/
def px (x y : Nat) (v : BitVec 4) (s : State) : State := s.setFb (s.c8.fb.setCell x y v)

/-- High resolution. -/
def hi (s : State) : State := s.updXo fun o => { o with hires := true }

/-- Select planes. -/
def planes (p : BitVec 4) (s : State) : State := s.updXo fun o => { o with plane := p }

/-- The 6502 flags in the order N V B D I Z C. -/
def fl (n v b d i z c : Bool) : Flags := { n := n, v := v, b := b, d := d, i := i, z := z, c := c }

/-- A bus read that succeeds. -/
def rd (a : Nat) (v : Byte) : BusOp := .read a v false

/-- A bus write that succeeds. -/
def wr (a : Nat) (v : Byte) : BusOp := .write a v false

/-- The kinds and addresses in the fault log. -/
def kinds (s : State) : List (FaultKind × Option Nat) := s.faultLog.map fun r => (r.kind, r.info)

/-- The decoder reads exactly `i` from the bytes. -/
def reads (a : Arch) (bytes : List Byte) (i : Instr) : Bool :=
  match decode a bytes with
  | .ok (j, rest) => decide (j = i) && rest.isEmpty
  | .error _ => false

/-- The decoder rejects the bytes with the given reason. -/
def rejects (a : Arch) (bytes : List Byte) (e : DecodeError) : Bool :=
  match decode a bytes with
  | .ok _ => false
  | .error d => decide (d = e)

/-! ## Well-formedness -/

/-- A 6502 row is no instruction of a CHIP-8 family instance. -/
theorem test_wellFormed_m65_row : Instr.wellFormed .chip8 .ldaImm = false ∧ Instr.wellFormed .xochip .nop = false ∧
    Instr.wellFormed .m6502 .ldaImm = true ∧ Instr.wellFormed .n6502 .nop = true := by decide

/-- A CHIP-8 row is no instruction of a 6502 instance. -/
theorem test_wellFormed_chip8_row : Instr.wellFormed .m6502 (.jp 0x234) = false ∧
    Instr.wellFormed .n6502 .cls = false ∧ Instr.wellFormed .chip8 (.jp 0x234) = true ∧
    Instr.wellFormed .xochip .cls = true := by decide

/-- An XOCHIP row is an instruction of XOCHIP alone. -/
theorem test_wellFormed_xochip_row : Instr.wellFormed .chip8 (.plane 3) = false ∧
    Instr.wellFormed .m6502 .audio = false ∧ Instr.wellFormed .xochip (.plane 3) = true := by decide

/-! ## Decoding: every constructor from a word written out -/

/-- The opcode bytes of the loads family, bit 7 first (R125). -/
theorem test_decode_loads : (
    [(0b10100001, .ldaIzx), (0b10100101, .ldaZp), (0b10101001, .ldaImm), (0b10101101, .ldaAbs),
     (0b10110001, .ldaIzy), (0b10110101, .ldaZpx), (0b10111001, .ldaAby), (0b10111101, .ldaAbx),
     (0b10100010, .ldxImm), (0b10100110, .ldxZp), (0b10101110, .ldxAbs), (0b10110110, .ldxZpy),
     (0b10111110, .ldxAby), (0b10100000, .ldyImm), (0b10100100, .ldyZp), (0b10101100, .ldyAbs),
     (0b10110100, .ldyZpx), (0b10111100, .ldyAbx)]
    : List (Byte × Instr)).all (fun p => reads .m6502 [p.1] p.2 && reads .n6502 [p.1] p.2) = true := by
  decide

/-- The opcode bytes of the stores family, bit 7 first (R125). -/
theorem test_decode_stores : (
    [(0b10000001, .staIzx), (0b10000101, .staZp), (0b10001101, .staAbs), (0b10010001, .staIzy),
     (0b10010101, .staZpx), (0b10011001, .staAby), (0b10011101, .staAbx), (0b10000110, .stxZp),
     (0b10001110, .stxAbs), (0b10010110, .stxZpy), (0b10000100, .styZp), (0b10001100, .styAbs),
     (0b10010100, .styZpx)]
    : List (Byte × Instr)).all (fun p => reads .m6502 [p.1] p.2 && reads .n6502 [p.1] p.2) = true := by
  decide

/-- The opcode bytes of the transfers family, bit 7 first (R125). -/
theorem test_decode_transfers : (
    [(0b10101010, .tax), (0b10101000, .tay), (0b10111010, .tsx), (0b10001010, .txa), (0b10011010, .txs),
     (0b10011000, .tya)]
    : List (Byte × Instr)).all (fun p => reads .m6502 [p.1] p.2 && reads .n6502 [p.1] p.2) = true := by
  decide

/-- The opcode bytes of the arithmetic family, bit 7 first (R125). -/
theorem test_decode_arithmetic : (
    [(0b01100001, .adcIzx), (0b01100101, .adcZp), (0b01101001, .adcImm), (0b01101101, .adcAbs),
     (0b01110001, .adcIzy), (0b01110101, .adcZpx), (0b01111001, .adcAby), (0b01111101, .adcAbx),
     (0b11100001, .sbcIzx), (0b11100101, .sbcZp), (0b11101001, .sbcImm), (0b11101101, .sbcAbs),
     (0b11110001, .sbcIzy), (0b11110101, .sbcZpx), (0b11111001, .sbcAby), (0b11111101, .sbcAbx)]
    : List (Byte × Instr)).all (fun p => reads .m6502 [p.1] p.2 && reads .n6502 [p.1] p.2) = true := by
  decide

/-- The opcode bytes of the logic family, bit 7 first (R125). -/
theorem test_decode_logic : (
    [(0b00100001, .andIzx), (0b00100101, .andZp), (0b00101001, .andImm), (0b00101101, .andAbs),
     (0b00110001, .andIzy), (0b00110101, .andZpx), (0b00111001, .andAby), (0b00111101, .andAbx),
     (0b00000001, .oraIzx), (0b00000101, .oraZp), (0b00001001, .oraImm), (0b00001101, .oraAbs),
     (0b00010001, .oraIzy), (0b00010101, .oraZpx), (0b00011001, .oraAby), (0b00011101, .oraAbx),
     (0b01000001, .eorIzx), (0b01000101, .eorZp), (0b01001001, .eorImm), (0b01001101, .eorAbs),
     (0b01010001, .eorIzy), (0b01010101, .eorZpx), (0b01011001, .eorAby), (0b01011101, .eorAbx)]
    : List (Byte × Instr)).all (fun p => reads .m6502 [p.1] p.2 && reads .n6502 [p.1] p.2) = true := by
  decide

/-- The opcode bytes of the compares family, bit 7 first (R125). -/
theorem test_decode_compares : (
    [(0b11000001, .cmpIzx), (0b11000101, .cmpZp), (0b11001001, .cmpImm), (0b11001101, .cmpAbs),
     (0b11010001, .cmpIzy), (0b11010101, .cmpZpx), (0b11011001, .cmpAby), (0b11011101, .cmpAbx),
     (0b11100000, .cpxImm), (0b11100100, .cpxZp), (0b11101100, .cpxAbs), (0b11000000, .cpyImm),
     (0b11000100, .cpyZp), (0b11001100, .cpyAbs), (0b00100100, .bitZp), (0b00101100, .bitAbs)]
    : List (Byte × Instr)).all (fun p => reads .m6502 [p.1] p.2 && reads .n6502 [p.1] p.2) = true := by
  decide

/-- The opcode bytes of the counts family, bit 7 first (R125). -/
theorem test_decode_counts : (
    [(0b11100110, .incZp), (0b11101110, .incAbs), (0b11110110, .incZpx), (0b11111110, .incAbx),
     (0b11000110, .decZp), (0b11001110, .decAbs), (0b11010110, .decZpx), (0b11011110, .decAbx),
     (0b11101000, .inx), (0b11001000, .iny), (0b11001010, .dex), (0b10001000, .dey)]
    : List (Byte × Instr)).all (fun p => reads .m6502 [p.1] p.2 && reads .n6502 [p.1] p.2) = true := by
  decide

/-- The opcode bytes of the shifts family, bit 7 first (R125). -/
theorem test_decode_shifts : (
    [(0b00000110, .aslZp), (0b00001010, .aslAcc), (0b00001110, .aslAbs), (0b00010110, .aslZpx),
     (0b00011110, .aslAbx), (0b01000110, .lsrZp), (0b01001010, .lsrAcc), (0b01001110, .lsrAbs),
     (0b01010110, .lsrZpx), (0b01011110, .lsrAbx), (0b00100110, .rolZp), (0b00101010, .rolAcc),
     (0b00101110, .rolAbs), (0b00110110, .rolZpx), (0b00111110, .rolAbx), (0b01100110, .rorZp),
     (0b01101010, .rorAcc), (0b01101110, .rorAbs), (0b01110110, .rorZpx), (0b01111110, .rorAbx)]
    : List (Byte × Instr)).all (fun p => reads .m6502 [p.1] p.2 && reads .n6502 [p.1] p.2) = true := by
  decide

/-- The opcode bytes of the branches family, bit 7 first (R125). -/
theorem test_decode_branches : (
    [(0b10010000, .bcc), (0b10110000, .bcs), (0b11110000, .beq), (0b00110000, .bmi), (0b11010000, .bne),
     (0b00010000, .bpl), (0b01010000, .bvc), (0b01110000, .bvs)]
    : List (Byte × Instr)).all (fun p => reads .m6502 [p.1] p.2 && reads .n6502 [p.1] p.2) = true := by
  decide

/-- The opcode bytes of the control family, bit 7 first (R125). -/
theorem test_decode_control : (
    [(0b01001100, .jmpAbs), (0b01101100, .jmpInd), (0b00100000, .jsr), (0b01100000, .rts), (0b01000000, .rti),
     (0b00000000, .brk), (0b11101010, .nop)]
    : List (Byte × Instr)).all (fun p => reads .m6502 [p.1] p.2 && reads .n6502 [p.1] p.2) = true := by
  decide

/-- The opcode bytes of the stack family, bit 7 first (R125). -/
theorem test_decode_stack : (
    [(0b01001000, .pha), (0b00001000, .php), (0b01101000, .pla), (0b00101000, .plp)]
    : List (Byte × Instr)).all (fun p => reads .m6502 [p.1] p.2 && reads .n6502 [p.1] p.2) = true := by
  decide

/-- The opcode bytes of the flags family, bit 7 first (R125). -/
theorem test_decode_flags : (
    [(0b00011000, .clc), (0b00111000, .sec), (0b01011000, .cli), (0b01111000, .sei), (0b10111000, .clv),
     (0b11011000, .cld), (0b11111000, .sed)]
    : List (Byte × Instr)).all (fun p => reads .m6502 [p.1] p.2 && reads .n6502 [p.1] p.2) = true := by
  decide

/-- CHIP-8 words with top 0 to 7, bit 15 first, fields x = A, y = 5, n = C, nn = 3C, nnn = 9C6 (R135). -/
theorem test_decode_base_low : (
    [([0b00000000, 0b11100000], .cls), ([0b00000000, 0b11101110], .ret), ([0b00011001, 0b11000110], .jp 0x9C6),
     ([0b00101001, 0b11000110], .call 0x9C6), ([0b00111010, 0b00111100], .seImm 0xA 0x3C),
     ([0b01001010, 0b00111100], .sneImm 0xA 0x3C), ([0b01011010, 0b01010000], .seReg 0xA 0x5),
     ([0b01101010, 0b00111100], .ldImm 0xA 0x3C), ([0b01111010, 0b00111100], .addImm 0xA 0x3C)]
    : List (List Byte × Instr)).all (fun p => reads .chip8 p.1 p.2 && reads .xochip p.1 p.2) = true := by
  decide

/-- CHIP-8 words with top 8 to E (R135). -/
theorem test_decode_base_middle : (
    [([0b10001010, 0b01010000], .ldReg 0xA 0x5), ([0b10001010, 0b01010001], .orReg 0xA 0x5),
     ([0b10001010, 0b01010010], .andReg 0xA 0x5), ([0b10001010, 0b01010011], .xorReg 0xA 0x5),
     ([0b10001010, 0b01010100], .addReg 0xA 0x5), ([0b10001010, 0b01010101], .subReg 0xA 0x5),
     ([0b10001010, 0b01010110], .shrReg 0xA 0x5), ([0b10001010, 0b01010111], .subnReg 0xA 0x5),
     ([0b10001010, 0b01011110], .shlReg 0xA 0x5), ([0b10011010, 0b01010000], .sneReg 0xA 0x5),
     ([0b10101001, 0b11000110], .ldI 0x9C6), ([0b10111001, 0b11000110], .jpV0 0x9C6),
     ([0b11001010, 0b00111100], .rnd 0xA 0x3C), ([0b11011010, 0b01011100], .drw 0xA 0x5 0xC),
     ([0b11101010, 0b10011110], .skp 0xA), ([0b11101010, 0b10100001], .sknp 0xA)]
    : List (List Byte × Instr)).all (fun p => reads .chip8 p.1 p.2 && reads .xochip p.1 p.2) = true := by
  decide

/-- CHIP-8 words with top F (R135). -/
theorem test_decode_base_misc : (
    [([0b11111010, 0b00000111], .ldVxDt 0xA), ([0b11111010, 0b00001010], .ldVxK 0xA),
     ([0b11111010, 0b00010101], .ldDtVx 0xA), ([0b11111010, 0b00011000], .ldStVx 0xA),
     ([0b11111010, 0b00011110], .addI 0xA), ([0b11111010, 0b00101001], .ldF 0xA),
     ([0b11111010, 0b00110011], .ldB 0xA), ([0b11111010, 0b01010101], .ldMemVx 0xA),
     ([0b11111010, 0b01100101], .ldVxMem 0xA)]
    : List (List Byte × Instr)).all (fun p => reads .chip8 p.1 p.2 && reads .xochip p.1 p.2) = true := by
  decide

/-- The words XOCHIP adds (R136). -/
theorem test_decode_xochip : (
    [([0b00000000, 0b11001100], .scd 0xC), ([0b00000000, 0b11011100], .scu 0xC),
     ([0b00000000, 0b11111011], .scr), ([0b00000000, 0b11111100], .scl), ([0b00000000, 0b11111110], .low),
     ([0b00000000, 0b11111111], .high), ([0b01011010, 0b01010010], .saveRange 0xA 0x5),
     ([0b01011010, 0b01010011], .loadRange 0xA 0x5), ([0b11110000, 0b00000000], .ldILong),
     ([0b11111100, 0b00000001], .plane 0xC), ([0b11110000, 0b00000010], .audio),
     ([0b11111010, 0b00110000], .ldHf 0xA), ([0b11111010, 0b00111010], .pitch 0xA),
     ([0b11111010, 0b01110101], .ldRVx 0xA), ([0b11111010, 0b10000101], .ldVxR 0xA)]
    : List (List Byte × Instr)).all (fun p => reads .xochip p.1 p.2) = true := by
  decide

/-- Illegal 6502 bytes (R127), unknown CHIP-8 words (R137), XOCHIP words on CHIP8, and the ignored `SYS` and `EXIT`
(D43, D44) are rejected by name. -/
theorem test_decode_rejects :
    ([0x02, 0x0F, 0x1A, 0x80, 0x9C, 0xEB, 0xFF].all fun b => rejects .m6502 [b] (.illegalOpcode b)) = true ∧
    ([[0x00, 0xFD], [0x01, 0x23], [0x51, 0x21], [0x80, 0x18], [0x91, 0x21], [0xE0, 0x9F], [0xF0, 0x08], [0xFF, 0xFF]].all
      fun w => rejects .xochip w (.unknownOpcode (mkWord (w.getD 0 0) (w.getD 1 0)))) = true ∧
    ([[0x00, 0xC1], [0x00, 0xFF], [0x51, 0x32], [0xF0, 0x00], [0xF3, 0x01], [0xF0, 0x02], [0xF0, 0x3A]].all
      fun w => rejects .chip8 w (.unknownOpcode (mkWord (w.getD 0 0) (w.getD 1 0)))) = true := by
  decide

/-- The host's numbering of a table word: one byte on the 6502 family, a 16-bit word on the CHIP-8 family. -/
theorem test_decodeTableWord : decodeTableWord 8 0xA9 = some .ldaImm ∧ decodeTableWord 16 0xD125 = some (.drw 1 2 5) ∧
    decodeTableWord 16 0xF000 = some .ldILong ∧ decodeTableWord 8 0x02 = none := by decide

/-- A table word placed by `withFetchWord` is what the very next step runs, on either family, from the reset state. -/
theorem test_withFetchWord : next (State.reset.withFetchWord 8 0xE8) (fun t => t.m65.x == 1 && t.m65.pc == 1) = true ∧
    next (State.reset.withFetchWord 16 0x6A42) (fun t => t.reg 0xA == 0x42 && t.c8.pc == 0x202) = true := by
  decide

/-! ## 6502 family: addressing modes (95_test_vectors.md 2.1) -/

/-- S3. -/
theorem test_lda_imm :
    next (m65 [0xA9, 0x42])
      (fun t => t.m65.a == 0x42 && !t.m65.p.z && !t.m65.p.n && t.m65.pc == 0x0202 && t.busTrace.length == 2) = true := by
  decide

/-- `A5 10`. -/
theorem test_lda_zp :
    next (m65 [0xA5, 0x10] id [(0x10, 0x80)])
      (fun t => t.m65.a == 0x80 && t.m65.p.n && t.busTrace.length == 3) = true := by
  decide

/-- `B5 FF` stays in page zero. -/
theorem test_lda_zpx_wraps :
    next (m65 [0xB5, 0xFF] (fun c => { c with x := 1 }) [(0, 0x33)])
      (fun t => t.m65.a == 0x33 && t.busTrace == [rd 0x200 0xB5, rd 0x201 0xFF, rd 0xFF 0, rd 0 0x33]) = true := by
  decide

/-- `AD 34 12`. -/
theorem test_lda_abs :
    next (m65 [0xAD, 0x34, 0x12] (fun c => { c with a := 7 }) [(0x1234, 0)])
      (fun t => t.m65.a == 0 && t.m65.p.z && t.busTrace.length == 4) = true := by
  decide

/-- `BD 00 12` without and `BD FF 12` with a page cross. -/
theorem test_lda_abx :
    next (m65 [0xBD, 0x00, 0x12] (fun c => { c with x := 1 }) [(0x1201, 0x11)])
      (fun t => t.m65.a == 0x11 && t.busTrace.length == 4) = true ∧
    next (m65 [0xBD, 0xFF, 0x12] (fun c => { c with x := 1 }) [(0x1300, 0x22)])
      (fun t => t.m65.a == 0x22 && t.busTrace.length == 5) = true := by
  decide

/-- `B9 FF 04` with the dummy read at 0x0400. -/
theorem test_lda_aby :
    next (m65 [0xB9, 0xFF, 0x04] (fun c => { c with y := 1 }) [(0x500, 0x7F)])
      (fun t => t.m65.a == 0x7F && t.busTrace.getD 3 (rd 0 0) == rd 0x400 0 && t.busTrace.length == 5) = true := by
  decide

/-- `A1 0F`, and `A1 FE` with the pointer wrapping inside page zero. -/
theorem test_lda_izx :
    next (m65 [0xA1, 0x0F] (fun c => { c with x := 1 }) [(0x10, 0), (0x11, 0x30), (0x3000, 0x44)])
      (fun t => t.m65.a == 0x44 &&
        t.busTrace == [rd 0x200 0xA1, rd 0x201 0x0F, rd 0x0F 0, rd 0x10 0, rd 0x11 0x30, rd 0x3000 0x44]) = true ∧
    next (m65 [0xA1, 0xFE] (fun c => { c with x := 1 }) [(0xFF, 0), (0, 0x30), (0x3000, 0x55)])
      (fun t => t.m65.a == 0x55) = true := by
  decide

/-- `B1 10` without and with a page cross. -/
theorem test_lda_izy :
    next (m65 [0xB1, 0x10] (fun c => { c with y := 1 }) [(0x10, 0), (0x11, 0x30), (0x3001, 0x66)])
      (fun t => t.m65.a == 0x66 && t.busTrace.length == 5) = true ∧
    next (m65 [0xB1, 0x10] (fun c => { c with y := 1 }) [(0x10, 0xFF), (0x11, 0x30), (0x3100, 0x77)])
      (fun t => t.m65.a == 0x77 && t.busTrace.getD 4 (rd 0 0) == rd 0x3000 0 && t.busTrace.length == 6) = true := by
  decide

/-- `9D 00 12`. -/
theorem test_sta_abx_keeps_the_penalty :
    next (m65 [0x9D, 0x00, 0x12] (fun c => { c with a := 0x99, x := 1 }))
      (fun t => t.busTrace == [rd 0x200 0x9D, rd 0x201 0, rd 0x202 0x12, rd 0x1201 0, wr 0x1201 0x99] &&
        t.peek 0x1201 == 0x99) = true := by
  decide

/-- `91 10` takes 6 ticks. -/
theorem test_sta_izy :
    next (m65 [0x91, 0x10] (fun c => { c with a := 0x99 }) [(0x11, 0x30)])
      (fun t => t.peek 0x3000 == 0x99 && t.busTrace.length == 6) = true := by
  decide

/-- `1E FF 12`: the old value is written back first. -/
theorem test_asl_abx :
    next (m65 [0x1E, 0xFF, 0x12] (fun c => { c with x := 1 }) [(0x1300, 0x40)])
      (fun t => t.busTrace == [rd 0x200 0x1E, rd 0x201 0xFF, rd 0x202 0x12, rd 0x1200 0, rd 0x1300 0x40, wr 0x1300 0x40, wr 0x1300 0x80] &&
        t.m65.p.n && !t.m65.p.c && !t.m65.p.z) = true := by
  decide

/-- S10: the byte at the uncorrected address is discarded. -/
theorem test_ora_abx_combines_once :
    next (m65 [0x1D, 0xFF, 0x12] (fun c => { c with a := 1, x := 1 }) [(0x1300, 0x80), (0x1200, 0x7E)])
      (fun t => t.m65.a == 0x81 && t.m65.p.n && !t.m65.p.z && t.busTrace.length == 5) = true := by
  decide

/-! ## 6502 family: loads, stores, transfers (2.2) -/

/-- `A2 00`, `A0 80`, `B6 10`. -/
theorem test_ldx_ldy :
    next (m65 [0xA2, 0x00] (fun c => { c with x := 5 })) (fun t => t.m65.x == 0 && t.m65.p.z && !t.m65.p.n) = true ∧
    next (m65 [0xA0, 0x80]) (fun t => t.m65.y == 0x80 && t.m65.p.n && !t.m65.p.z) = true ∧
    next (m65 [0xB6, 0x10] (fun c => { c with y := 0xF1 }) [(1, 9)])
      (fun t => t.m65.x == 9 && t.busTrace.length == 4) = true := by
  decide

/-- `85 10`, `8E 00 30`, `94 10`; no flag. -/
theorem test_stores :
    next (m65 [0x85, 0x10] id [(0x10, 7)])
      (fun t => t.peek 0x10 == 0 && !t.m65.p.z && t.busTrace.length == 3) = true ∧
    next (m65 [0x8E, 0x00, 0x30] (fun c => { c with x := 0xAB }))
      (fun t => t.peek 0x3000 == 0xAB && t.busTrace.length == 4) = true ∧
    next (m65 [0x94, 0x10] (fun c => { c with x := 2, y := 7 }))
      (fun t => t.peek 0x12 == 7 && t.busTrace.length == 4) = true := by
  decide

/-- `AA`, `A8`, `BA`, `8A`, `9A`, `98`. -/
theorem test_transfers :
    next (m65 [0xAA] (fun c => { c with a := 0x80 }))
      (fun t => t.m65.x == 0x80 && t.m65.p.n && t.busTrace.length == 2) = true ∧
    next (m65 [0xA8] (fun c => { c with y := 3 })) (fun t => t.m65.y == 0 && t.m65.p.z) = true ∧
    next (m65 [0xBA]) (fun t => t.m65.x == 0xFD && t.m65.p.n) = true ∧
    next (m65 [0x8A] (fun c => { c with a := 3 })) (fun t => t.m65.a == 0 && t.m65.p.z) = true ∧
    next (m65 [0x9A]) (fun t => t.m65.s == 0 && !t.m65.p.z) = true ∧
    next (m65 [0x98] (fun c => { c with y := 0x7F })) (fun t => t.m65.a == 0x7F && !t.m65.p.n && !t.m65.p.z) = true := by
  decide

/-! ## 6502 family: arithmetic and logic (2.3); flags N V B D I Z C, `I` is 1 after reset -/

/-- S4 and 2.3: carry out, both overflows, carry in. -/
theorem test_adc :
    next (m65 [0x69, 0x01] (fun c => { c with a := 0xFF }))
      (fun t => t.m65.a == 0 && t.m65.p == fl false false false false true true true) = true ∧
    next (m65 [0x69, 0x01] (fun c => { c with a := 0x7F }))
      (fun t => t.m65.a == 0x80 && t.m65.p == fl true true false false true false false) = true ∧
    next (m65 [0x69, 0x80] (fun c => { c with a := 0x80 }))
      (fun t => t.m65.a == 0 && t.m65.p == fl false true false false true true true) = true ∧
    next (m65 [0x69, 0x50] (fun c => { c with a := 0x50, p := fl false false false false true false true }))
      (fun t => t.m65.a == 0xA1 && t.m65.p == fl true true false false true false false) = true := by
  decide

/-- `69 01` with `D` = 1 (R242). -/
theorem test_adc_ignores_decimal :
    next (m65 [0x69, 0x01] (fun c => { c with a := 9, p := fl false false false true true false false }))
      (fun t => t.m65.a == 0x0A && t.m65.p.d) = true := by
  decide

/-- 2.3: borrow, both overflows, borrow in. -/
theorem test_sbc :
    next (m65 [0xE9, 0xF0] (fun c => { c with a := 0x50, p := fl false false false false true false true }))
      (fun t => t.m65.a == 0x60 && t.m65.p == fl false false false false true false false) = true ∧
    next (m65 [0xE9, 0xB0] (fun c => { c with a := 0x50, p := fl false false false false true false true }))
      (fun t => t.m65.a == 0xA0 && t.m65.p == fl true true false false true false false) = true ∧
    next (m65 [0xE9, 0x05] (fun c => { c with a := 5 }))
      (fun t => t.m65.a == 0xFF && t.m65.p == fl true false false false true false false) = true ∧
    next (m65 [0xE9, 0x01] (fun c => { c with a := 0x80, p := fl false false false false true false true }))
      (fun t => t.m65.a == 0x7F && t.m65.p == fl false true false false true false true) = true := by
  decide

/-- `29 0F`, `09 80`, `49 FF`. -/
theorem test_logic :
    next (m65 [0x29, 0x0F] (fun c => { c with a := 0xF0 }))
      (fun t => t.m65.a == 0 && t.m65.p == fl false false false false true true false) = true ∧
    next (m65 [0x09, 0x80] (fun c => { c with a := 1 }))
      (fun t => t.m65.a == 0x81 && t.m65.p == fl true false false false true false false) = true ∧
    next (m65 [0x49, 0xFF] (fun c => { c with a := 0xFF }))
      (fun t => t.m65.a == 0 && t.m65.p == fl false false false false true true false) = true := by
  decide

/-- `C9 40`, `C9 41`, `C9 01`, `E0 20`, `C0 00`. -/
theorem test_compares :
    next (m65 [0xC9, 0x40] (fun c => { c with a := 0x40 }))
      (fun t => t.m65.a == 0x40 && t.m65.p == fl false false false false true true true) = true ∧
    next (m65 [0xC9, 0x41] (fun c => { c with a := 0x40 }))
      (fun t => t.m65.p == fl true false false false true false false) = true ∧
    next (m65 [0xC9, 0x01] (fun c => { c with a := 0x80 }))
      (fun t => t.m65.p == fl false false false false true false true) = true ∧
    next (m65 [0xE0, 0x20] (fun c => { c with x := 0x10 }))
      (fun t => t.m65.p == fl true false false false true false false) = true ∧
    next (m65 [0xC0, 0x00] (fun c => { c with y := 0xFF }))
      (fun t => t.m65.p == fl true false false false true false true) = true := by
  decide

/-- `24 10` twice. -/
theorem test_bit :
    next (m65 [0x24, 0x10] (fun c => { c with a := 1 }) [(0x10, 0xC0)])
      (fun t => t.m65.a == 1 && t.m65.p == fl true true false false true true false &&
        t.busTrace.length == 3) = true ∧
    next (m65 [0x24, 0x10] (fun c => { c with a := 0xFF }) [(0x10, 0x3F)])
      (fun t => t.m65.p == fl false false false false true false false) = true := by
  decide

/-- `E6 10`, `C6 10`: the byte wraps. -/
theorem test_inc_dec :
    next (m65 [0xE6, 0x10] (fun c => { c with p := fl false false false false true false true }) [(0x10, 0xFF)])
      (fun t => t.peek 0x10 == 0 && t.m65.p == fl false false false false true true true &&
        t.busTrace.length == 5) = true ∧
    next (m65 [0xC6, 0x10])
      (fun t => t.peek 0x10 == 0xFF && t.m65.p == fl true false false false true false false &&
        t.busTrace.length == 5) = true := by
  decide

/-- `E8`, `C8`, `CA`, `88`. -/
theorem test_register_counts :
    next (m65 [0xE8] (fun c => { c with x := 0xFF }))
      (fun t => t.m65.x == 0 && t.m65.p == fl false false false false true true false) = true ∧
    next (m65 [0xC8] (fun c => { c with y := 0x7F }))
      (fun t => t.m65.y == 0x80 && t.m65.p == fl true false false false true false false) = true ∧
    next (m65 [0xCA]) (fun t => t.m65.x == 0xFF && t.m65.p == fl true false false false true false false) = true ∧
    next (m65 [0x88] (fun c => { c with y := 1 }))
      (fun t => t.m65.y == 0 && t.m65.p == fl false false false false true true false) = true := by
  decide

/-- `0A`, `4A`, `2A`, `6A`. -/
theorem test_shifts :
    next (m65 [0x0A] (fun c => { c with a := 0x81 }))
      (fun t => t.m65.a == 2 && t.m65.p == fl false false false false true false true) = true ∧
    next (m65 [0x4A] (fun c => { c with a := 1 }))
      (fun t => t.m65.a == 0 && t.m65.p == fl false false false false true true true) = true ∧
    next (m65 [0x2A] (fun c => { c with a := 0x80, p := fl false false false false true false true }))
      (fun t => t.m65.a == 1 && t.m65.p == fl false false false false true false true) = true ∧
    next (m65 [0x6A] (fun c => { c with a := 1, p := fl false false false false true false true }))
      (fun t => t.m65.a == 0x80 && t.m65.p == fl true false false false true false true) = true := by
  decide

/-! ## 6502 family: control flow, stack, flags (2.4) -/

/-- `90 7F` at 0x02F0 and `90 02` at 0xFFFD: 4 ticks with the dummy read in the old page. -/
theorem test_branches_crossing :
    next (m65 [0x90, 0x7F] (fun c => { c with pc := 0x02F0 }))
      (fun t => t.m65.pc == 0x0371 && t.busTrace.getD 3 (rd 0 0) == rd 0x0271 0 && t.busTrace.length == 4) = true ∧
    next (m65 [0x90, 0x02] (fun c => { c with pc := 0xFFFD }))
      (fun t => t.m65.pc == 1 && t.busTrace.getD 3 (rd 0 0) == rd 0xFF01 0 && t.busTrace.length == 4) = true := by
  decide

/-- `30 02`, `10 FE`, `50 00`, `70 80`, `D0 05`, `F0 FB`. -/
theorem test_branches_taken :
    next (m65 [0x30, 0x02] (fun c => { c with p := fl true false false false true false false }))
      (fun t => t.m65.pc == 0x0204 && t.busTrace.length == 3) = true ∧
    next (m65 [0x10, 0xFE]) (fun t => t.m65.pc == 0x0200 && t.busTrace.length == 3) = true ∧
    next (m65 [0x50, 0x00]) (fun t => t.m65.pc == 0x0202 && t.busTrace.length == 3) = true ∧
    next (m65 [0x70, 0x80] (fun c => { c with pc := 0x0280, p := fl false true false false true false false }))
      (fun t => t.m65.pc == 0x0202 && t.busTrace.length == 3) = true ∧
    next (m65 [0xD0, 0x05]) (fun t => t.m65.pc == 0x0207 && t.busTrace.length == 3) = true ∧
    next (m65 [0xF0, 0xFB] (fun c => { c with pc := 0x0300, p := fl false false false false true true false }))
      (fun t => t.m65.pc == 0x02FD && t.busTrace.length == 4) = true := by
  decide

/-- `B0 10` with `C` = 0 and `D0 05` with `Z` = 1: 2 ticks. -/
theorem test_branches_not_taken :
    next (m65 [0xB0, 0x10]) (fun t => t.m65.pc == 0x0202 && t.busTrace.length == 2) = true ∧
    next (m65 [0xD0, 0x05] (fun c => { c with p := fl false false false false true true false }))
      (fun t => t.m65.pc == 0x0202 && t.busTrace.length == 2) = true := by
  decide

/-- `4C 34 12`, and `6C FF 03` with the high byte from the same page (D13). -/
theorem test_jmp :
    next (m65 [0x4C, 0x34, 0x12]) (fun t => t.m65.pc == 0x1234 && t.busTrace.length == 3) = true ∧
    next (m65 [0x6C, 0xFF, 0x03] (fun c => { c with a := 0 }) [(0x3FF, 0x78), (0x300, 0x56), (0x400, 0x99)])
      (fun t => t.m65.pc == 0x5678 && t.busTrace.length == 5) = true := by
  decide

/-- `20 00 03`. -/
theorem test_jsr :
    next (m65 [0x20, 0x00, 0x03])
      (fun t => t.m65.s == 0xFB && t.m65.pc == 0x0300 &&
        t.busTrace == [rd 0x200 0x20, rd 0x201 0, rd 0x1FD 0, wr 0x1FD 2, wr 0x1FC 2, rd 0x202 3]) = true := by
  decide

/-- `60` at 0x0300 after that `JSR`. -/
theorem test_rts :
    next (m65 [0x60] (fun c => { c with pc := 0x0300, s := 0xFB }) [(0x1FD, 2), (0x1FC, 2)])
      (fun t => t.m65.s == 0xFD && t.m65.pc == 0x0203 &&
        t.busTrace == [rd 0x300 0x60, rd 0x301 0, rd 0x1FB 0, rd 0x1FC 2, rd 0x1FD 2, rd 0x202 0]) = true := by
  decide

/-- `00 EA`: the return address skips the padding byte; the pushed status is B1. -/
theorem test_brk :
    next (m65 [0x00, 0xEA] (fun c => { c with p := fl true false false false false false true }) [(0xFFFF, 0x80)])
      (fun t => t.m65.s == 0xFA && t.m65.p == fl true false true false true false true && t.m65.pc == 0x8000 &&
        t.busTrace.drop 2 == [wr 0x1FD 2, wr 0x1FC 2, wr 0x1FB 0xB1, rd 0xFFFE 0, rd 0xFFFF 0x80]) = true := by
  decide

/-- `40` at 0x8000 after that `BRK`: `P.B` stays. -/
theorem test_rti :
    next (m65 [0x40] (fun c => { c with pc := 0x8000, s := 0xFA, p := fl true false true false true false true }) [(0x1FD, 2), (0x1FC, 2), (0x1FB, 0xB1)])
      (fun t => t.m65.s == 0xFD && t.m65.p == fl true false true false false false true && t.m65.pc == 0x0202 &&
        t.busTrace.length == 6) = true := by
  decide

/-- `48`, `48` with `S` = 0, `08`. -/
theorem test_pha_php :
    next (m65 [0x48] (fun c => { c with a := 0x42 }))
      (fun t => t.m65.s == 0xFC && t.peek 0x1FD == 0x42 && t.busTrace.length == 3) = true ∧
    next (m65 [0x48] (fun c => { c with a := 0x11, s := 0 }))
      (fun t => t.m65.s == 0xFF && t.peek 0x100 == 0x11) = true ∧
    next (m65 [0x08] (fun c => { c with p := fl false false false false true true true }))
      (fun t => t.peek 0x1FD == 0x37 && t.busTrace.length == 3) = true := by
  decide

/-- `68`, `68` with `S` = 0xFF, `28` of FF and of 00. -/
theorem test_pla_plp :
    next (m65 [0x68] id [(0x1FE, 0x80)])
      (fun t => t.m65.a == 0x80 && t.m65.p.n && t.m65.s == 0xFE && t.busTrace.length == 4) = true ∧
    next (m65 [0x68] (fun c => { c with s := 0xFF }) [(0x100, 0x22)])
      (fun t => t.m65.a == 0x22 && t.m65.s == 0) = true ∧
    next (m65 [0x28] id [(0x1FE, 0xFF)])
      (fun t => t.m65.p == fl true true false true true true true && t.busTrace.length == 4) = true ∧
    next (m65 [0x28] (fun c => { c with p := fl true true true true true true true }))
      (fun t => t.m65.p == fl false false true false false false false) = true := by
  decide

/-- `EA`, `18`, `38`, `58`, `78`, `B8`, `D8`, `F8`. -/
theorem test_flag_instructions :
    next (m65 [0xEA])
      (fun t => t.m65.pc == 0x0201 && t.m65.p == fl false false false false true false false &&
        t.busTrace.length == 2) = true ∧
    next (m65 [0x18] (fun c => { c with p := fl false false false false true false true }))
      (fun t => !t.m65.p.c) = true ∧
    next (m65 [0x38]) (fun t => t.m65.p.c) = true ∧
    next (m65 [0x58]) (fun t => !t.m65.p.i) = true ∧
    next (m65 [0x78] (fun c => { c with p := fl false false false false false false false }))
      (fun t => t.m65.p.i) = true ∧
    next (m65 [0xB8] (fun c => { c with p := fl false true false false true false false }))
      (fun t => !t.m65.p.v) = true ∧
    next (m65 [0xD8] (fun c => { c with p := fl false false false true true false false }))
      (fun t => !t.m65.p.d) = true ∧
    next (m65 [0xF8]) (fun t => t.m65.p.d) = true := by
  decide

/-- S10: `02` is one record and one tick. -/
theorem test_illegal_opcode :
    next (m65 [0x02, 0xEA])
      (fun t => t.m65.t == 0 && t.m65.pc == 0x0201 && kinds t == [(.illegalOpcode, none)] &&
        t.faultLog.map (fun r => (r.opcode, r.pc)) == [(0x0002, 0x0201)] && t.busTrace.length == 1) = true := by
  decide

/-- 2.9: after `PowerOn` with no program the first instruction is `BRK` at 0x0000. -/
theorem test_reset_runs_brk :
    next State.reset
      (fun t => t.m65.s == 0xFA && t.m65.p.b && t.m65.pc == 0 &&
        t.busTrace == [rd 0 0, rd 1 0, wr 0x1FD 0, wr 0x1FC 2, wr 0x1FB 0x34, rd 0xFFFE 0, rd 0xFFFF 0]) = true := by
  decide

/-! ## 6502 family: micro-cycles and host operations (2.1, 2.9) -/

/-- The state after `k` calls of `tick`, on a state where each answers. -/
def afterTicks (k : Nat) (s : State) (p : State → Bool) : Bool :=
  match ticks65 k s with
  | .next t => p t
  | .fault _ => false
  | .refused _ => false

/-- `AD 34 12` after 1, 3 and 4 ticks (R30, R163). -/
theorem test_mid_instruction :
    afterTicks 1 (m65 [0xAD, 0x34, 0x12] id [(0x1234, 0x80)])
      (fun t => t.m65.t == 1 && t.m65.pc == 0x201 && t.m65.a == 0) = true ∧
    afterTicks 3 (m65 [0xAD, 0x34, 0x12] id [(0x1234, 0x80)])
      (fun t => t.m65.t == 3 && t.m65.pc == 0x203 && t.m65.a == 0) = true ∧
    afterTicks 4 (m65 [0xAD, 0x34, 0x12] id [(0x1234, 0x80)])
      (fun t => t.m65.t == 0 && t.m65.pc == 0x203 && t.m65.a == 0x80) = true := by
  decide

/-- A pending `tick` is one micro-cycle; `steps` is ignored (R160). -/
theorem test_host_tick_is_one_micro_cycle :
    next { m65 [0xA9, 0x42] with hostQueue := [.tick 9] }
      (fun t => t.m65.t == 1 && t.m65.a == 0 && t.hostQueue.isEmpty) = true := by
  decide

/-- 2.9: `Reset` goes through the vector and keeps memory. -/
theorem test_host_reset :
    next { m65 [0xEA] (fun c => { c with a := 9, s := 3, t := 4 }) [(0xFFFD, 0x80)] with hostQueue := [.reset] }
      (fun t => t.m65.pc == 0x8000 && t.m65.s == 0xFD && t.m65.p.i && t.m65.a == 0 && t.m65.t == 0 &&
        t.peek 0x200 == 0xEA) = true := by
  decide

/-- Operations an M6502 does not provide, and a key out of range (log 14). -/
theorem test_host_refusals :
    refusedWith { m65 [] with hostQueue := [.decayTimers] } .operationNotProvided = true ∧
    refusedWith { c8 .chip8 [] with hostQueue := [.setKeyState 16 true] } .keyIndexOutOfRange = true := by
  decide

/-! ## CHIP-8 family: engine (2.5) -/

/-- `PC`, `CYCLES` and `HALTED` of an XOCHIP dump. -/
def shown : Dump → Option (Word × Nat × Bool)
  | .xochip d x => some (d.pc, x.cycles, x.halted)
  | .chip8 _ => none
  | .m65 _ => none

/-- `FF FF` is one record; so is `F3 01` on CHIP8, and `00 FD`. -/
theorem test_unknown_opcode :
    next (c8 .chip8 [0xFF, 0xFF])
      (fun t => t.c8.pc == 0x202 && kinds t == [(.unknownOpcode, none)] &&
        t.faultLog.map (fun r => (r.opcode, r.pc)) == [(0xFFFF, 0x0202)]) = true ∧
    next (c8 .chip8 [0xF3, 0x01]) (fun t => t.c8.pc == 0x202 && kinds t == [(.unknownOpcode, none)]) = true ∧
    next (c8 .xochip [0x00, 0xFD]) (fun t => t.c8.pc == 0x202 && kinds t == [(.unknownOpcode, none)]) = true := by
  decide

/-- `PC` = 0x0FFF on CHIP8. -/
theorem test_fetch_beyond_memory :
    next (c8 .chip8 [] (fun s => s.setPc 0x0FFF) [(0xFFF, 0x60)])
      (fun t => t.c8.pc == 0x1001 && t.c8.op == 0x6000 && kinds t == [(.outOfBoundsRead, some 0x1000)]) = true := by
  decide

/-- R322, R443: `PC` = 0x1000 on CHIP8 gives three records, the two of the fetch with the previous `OP`. -/
theorem test_fetch_outside_memory :
    next (c8 .chip8 [] (fun s => s.updC8 fun c => { c with pc := 0x1000, op := 0x6A42 }))
      (fun t => t.c8.pc == 0x1002 && t.c8.op == 0 &&
        kinds t == [(.outOfBoundsRead, some 0x1000), (.outOfBoundsRead, some 0x1001), (.unknownOpcode, none)] &&
        t.faultLog.map (fun r => (r.opcode, r.pc)) == [(0x6A42, 0x1000), (0x6A42, 0x1000), (0, 0x1002)]) = true := by
  decide

/-- `F0 00` at 0xFFFE on XOCHIP. -/
theorem test_pc_wraps :
    next (c8 .xochip [] (fun s => s.setPc 0xFFFE) [(0xFFFE, 0xF0), (0, 0x12), (1, 0x34)])
      (fun t => t.c8.i == 0x1234 && t.c8.pc == 2) = true := by
  decide

/-- `D0 05 60 01` with `DISPLAY_WAIT`: a budget of 10 runs the `DRW` alone. -/
theorem test_display_wait :
    next { c8 .chip8 [0xD0, 0x05, 0x60, 0x01] (fun s => { s with cfg := { s.cfg with displayWait := true } }) with hostQueue := [.tick 10] }
      (fun t => t.c8.pc == 0x202 && t.reg 0 == 0) = true ∧
    next { c8 .chip8 [0xD0, 0x05, 0x60, 0x01] with hostQueue := [.tick 2] }
      (fun t => t.c8.pc == 0x204 && t.reg 0 == 1) = true := by
  decide

/-- `60 01 D0 05 60 02` with `DISPLAY_WAIT`: `60 01` runs and the budget goes on to the `DRW`. -/
theorem test_display_wait_goes_on :
    next { c8 .chip8 [0x60, 0x01, 0xD0, 0x05, 0x60, 0x02] (fun s => { s with cfg := { s.cfg with displayWait := true } }) with hostQueue := [.tick 10] }
      (fun t => t.c8.pc == 0x204 && t.reg 0 == 1) = true := by
  decide

/-- The reads answer on the architectures of R70: none on the 6502 family, no pitch on CHIP8. -/
theorem test_reads_by_architecture : (m65 []).getFramebuffer = none ∧ (m65 []).getSoundActive = none ∧
    (m65 []).getPitch = none ∧ (c8 .chip8 []).getPitch = none ∧
    (c8 .chip8 []).getFramebuffer.map (fun rows => (rows.length, rows.map List.length == List.replicate 32 64)) =
      some (32, true) := ⟨rfl, rfl, rfl, rfl, by decide⟩

/-- `60 01 70 01 70 01 12 02`, breakpoint at 0x0204, a budget of 10. -/
theorem test_breakpoint :
    next { c8 .xochip [0x60, 0x01, 0x70, 0x01, 0x70, 0x01, 0x12, 0x02] (fun s => s.setBreakpoint 0x204) with hostQueue := [.tick 10] }
      (fun t => t.reg 0 == 2 && t.c8.pc == 0x204 && t.xo.halted && t.xo.cycles == 2 &&
        t.xo.debugLog.length == 1) = true := by
  decide

/-- The report (R320, R323, R77): `CYCLES` and a dump whose `HALTED` is already 1. -/
theorem test_breakpoint_report :
    next { c8 .xochip [0x60, 0x01, 0x70, 0x01, 0x70, 0x01, 0x12, 0x02] (fun s => s.setBreakpoint 0x204) with hostQueue := [.tick 10] }
      (fun t => t.xo.debugLog.map (fun r => r.1) == [2] &&
        (t.xo.debugLog.map fun r => shown r.2) == [some (0x204, 2, true)]) = true := by
  decide

/-- `clearBreakpoint` ends the halt (R78). -/
theorem test_clear_breakpoint :
    next { c8 .xochip [] (fun s => { s with xo := { s.xo with halted := true, bpEn := true } }) with hostQueue := [.clearBreakpoint] }
      (fun t => !t.xo.halted && !t.xo.bpEn) = true := by
  decide

/-- S8. -/
theorem test_decay_timers :
    next { c8 .chip8 [] (fun s => s.updC8 fun c => { c with dt := 2, st := 0 }) with hostQueue := [.decayTimers] }
      (fun t => t.c8.dt == 1 && t.c8.st == 0) = true := by
  decide

/-- S9: a press is no release edge, a release is. -/
theorem test_key_latch :
    next { c8 .chip8 [] with hostQueue := [.setKeyState 7 true] } (fun t => !t.c8.kwValid && t.keyDown 7) = true ∧
    next { c8 .chip8 [] (fun s => s.setKeyState 7 true) with hostQueue := [.setKeyState 7 false] }
      (fun t => t.c8.kwValid && t.c8.kwIndex == 7) = true := by
  decide

/-- R95: bytes past the memory are dropped, one record each. -/
theorem test_load_program :
    next { c8 .chip8 [] (fun s => s.setFb (s.c8.fb.setCell 3 4 1)) with hostQueue := [.loadProgram [0x12, 0x34]] }
      (fun t => t.peek 0x200 == 0x12 && t.peek 0x201 == 0x34 && t.c8.fb.cell 3 4 == 0) = true := by
  decide

/-! ## CHIP-8 family: base instructions (2.6) -/

/-- S5 `12 34`, `22 34`, `B3 00`. -/
theorem test_flow :
    next (c8 .chip8 [0x12, 0x34]) (fun t => t.c8.pc == 0x234) = true ∧
    next (c8 .chip8 [0x22, 0x34])
      (fun t => t.c8.stack.toList.getD 0 0 == 0x202 && t.c8.sp == 1 && t.c8.pc == 0x234) = true ∧
    next (c8 .chip8 [0xB3, 0x00] (fun s => reg 0x0 0x10 s)) (fun t => t.c8.pc == 0x310) = true ∧
    next (c8 .chip8 [0xB3, 0x00] (fun s => reg 3 0x20 { s with cfg := { s.cfg with qJumpVx := true } }))
      (fun t => t.c8.pc == 0x320) = true := by
  decide

/-- `00 EE` with an entry, and the ignored `00 EE` of S10. -/
theorem test_ret :
    next (c8 .chip8 [0x00, 0xEE] (fun s => s.updC8 fun c => { c with sp := 1, stack := c.stack.setIfInBounds 0 0x345 }))
      (fun t => t.c8.pc == 0x345 && t.c8.sp == 0) = true ∧
    next (c8 .chip8 [0x00, 0xEE])
      (fun t => t.c8.pc == 0x202 && t.c8.sp == 0 && kinds t == [(.stackUnderflow, none)]) = true := by
  decide

/-- `22 34` with 12 entries overflows on CHIP8 and not on XOCHIP. -/
theorem test_call_depth :
    next (c8 .chip8 [0x22, 0x34] (fun s => s.updC8 fun c => { c with sp := 12 }))
      (fun t => t.c8.pc == 0x202 && t.c8.sp == 12 && kinds t == [(.stackOverflow, none)]) = true ∧
    next (c8 .xochip [0x22, 0x34] (fun s => s.updC8 fun c => { c with sp := 12 }))
      (fun t => t.c8.pc == 0x234 && t.c8.sp == 13 && kinds t == []) = true := by
  decide

/-- `30 05`, `40 05`, `51 20`, `91 20`. -/
theorem test_skips :
    next (c8 .chip8 [0x30, 0x05] (fun s => reg 0x0 5 s)) (fun t => t.c8.pc == 0x204) = true ∧
    next (c8 .chip8 [0x30, 0x05] (fun s => reg 0x0 6 s)) (fun t => t.c8.pc == 0x202) = true ∧
    next (c8 .chip8 [0x40, 0x05] (fun s => reg 0x0 6 s)) (fun t => t.c8.pc == 0x204) = true ∧
    next (c8 .chip8 [0x51, 0x20] (fun s => reg 0x2 9 (reg 0x1 9 s))) (fun t => t.c8.pc == 0x204) = true ∧
    next (c8 .chip8 [0x91, 0x20] (fun s => reg 0x2 2 (reg 0x1 1 s))) (fun t => t.c8.pc == 0x204) = true := by
  decide

/-- S10: over `F000 NNNN` on XOCHIP, over two bytes on CHIP8. -/
theorem test_skip_over_long :
    next (c8 .xochip [0x30, 0x05, 0xF0, 0x00, 0x12, 0x34] (fun s => reg 0x0 5 s)) (fun t => t.c8.pc == 0x206) = true ∧
    next (c8 .chip8 [0x30, 0x05, 0xF0, 0x00, 0x12, 0x34] (fun s => reg 0x0 5 s)) (fun t => t.c8.pc == 0x204) = true := by
  decide

/-- `E0 9E` and `E0 A1`; the low 4 bits name the key (D16). -/
theorem test_key_skips :
    next (c8 .chip8 [0xE0, 0x9E] (fun s => reg 0 0x1A (s.setKeyState 10 true))) (fun t => t.c8.pc == 0x204) = true ∧
    next (c8 .chip8 [0xE0, 0xA1] (fun s => reg 0 0x0A (s.setKeyState 10 true))) (fun t => t.c8.pc == 0x202) = true := by
  decide

/-- `6A 42`, `70 02`, `80 10`, `F0 07`, `F0 15`, `F0 18`. -/
theorem test_register_loads :
    next (c8 .chip8 [0x6A, 0x42]) (fun t => t.reg 0xA == 0x42) = true ∧
    next (c8 .chip8 [0x70, 0x02] (fun s => reg 0xF 9 (reg 0x0 0xFF s)))
      (fun t => t.reg 0 == 1 && t.reg 0xF == 9) = true ∧
    next (c8 .chip8 [0x80, 0x10] (fun s => reg 0x1 0x77 s)) (fun t => t.reg 0 == 0x77) = true ∧
    next (c8 .chip8 [0xF0, 0x07] (fun s => s.updC8 fun c => { c with dt := 0x2A }))
      (fun t => t.reg 0 == 0x2A) = true ∧
    next (c8 .chip8 [0xF0, 0x15] (fun s => reg 0x0 0x10 s)) (fun t => t.c8.dt == 0x10) = true ∧
    next (c8 .chip8 [0xF0, 0x18] (fun s => reg 0x0 0x10 s))
      (fun t => t.c8.st == 0x10 && t.getSoundActive == some true) = true := by
  decide

/-- `80 11` on both architectures, `80 12`, `80 13`. -/
theorem test_logic_group :
    next (c8 .chip8 [0x80, 0x11] (fun s => reg 0xF 7 (reg 0x1 0x0F (reg 0x0 0xF0 s))))
      (fun t => t.reg 0 == 0xFF && t.reg 0xF == 0) = true ∧
    next (c8 .xochip [0x80, 0x11] (fun s => reg 0xF 7 (reg 0x1 0x0F (reg 0x0 0xF0 s))))
      (fun t => t.reg 0 == 0xFF && t.reg 0xF == 7) = true ∧
    next (c8 .chip8 [0x80, 0x12] (fun s => reg 0x1 0x3C (reg 0x0 0xF0 s))) (fun t => t.reg 0 == 0x30) = true ∧
    next (c8 .chip8 [0x80, 0x13] (fun s => reg 0x1 0x0F (reg 0x0 0xFF s))) (fun t => t.reg 0 == 0xF0) = true := by
  decide

/-- `8F 14`, `80 F4`, `80 15`, S6, `80 17`. -/
theorem test_add_sub :
    next (c8 .chip8 [0x8F, 0x14] (fun s => reg 0x1 1 (reg 0xF 0xFF s))) (fun t => t.reg 0xF == 1) = true ∧
    next (c8 .chip8 [0x80, 0xF4] (fun s => reg 0xF 1 (reg 0x0 0xFF s)))
      (fun t => t.reg 0 == 0 && t.reg 0xF == 1) = true ∧
    next (c8 .chip8 [0x80, 0x15] (fun s => reg 0x1 5 (reg 0x0 5 s)))
      (fun t => t.reg 0 == 0 && t.reg 0xF == 1) = true ∧
    next (c8 .chip8 [0x80, 0x15] (fun s => reg 0x1 2 (reg 0x0 1 s)))
      (fun t => t.reg 0 == 0xFF && t.reg 0xF == 0) = true ∧
    next (c8 .chip8 [0x80, 0x17] (fun s => reg 0x1 2 (reg 0x0 1 s)))
      (fun t => t.reg 0 == 1 && t.reg 0xF == 1) = true ∧
    next (c8 .chip8 [0x80, 0x17] (fun s => reg 0x1 1 (reg 0x0 2 s)))
      (fun t => t.reg 0 == 0xFF && t.reg 0xF == 0) = true := by
  decide

/-- `80 16` under both quirks, `80 1E`. -/
theorem test_c8_shifts :
    next (c8 .chip8 [0x80, 0x16] (fun s => reg 0x1 5 (reg 0x0 0xFF s)))
      (fun t => t.reg 0 == 2 && t.reg 0xF == 1) = true ∧
    next (c8 .chip8 [0x80, 0x16] (fun s => reg 0 0xFF (reg 1 5 { s with cfg := { s.cfg with qShiftVy := false } })))
      (fun t => t.reg 0 == 0x7F && t.reg 0xF == 1) = true ∧
    next (c8 .chip8 [0x80, 0x1E] (fun s => reg 0x1 0x81 s)) (fun t => t.reg 0 == 2 && t.reg 0xF == 1) = true := by
  decide

/-- `C0 0F`: one byte is drawn and no other register changes; the byte itself is a free value (log 5). -/
theorem test_rnd_masks :
    next (c8 .chip8 [0xC0, 0x0F] (fun s => reg 0x1 7 s)) (fun t => t.reg 1 == 7 && t.randDraws == 1) = true := by
  decide

/-- `A1 23`, `F0 1E`, `F0 29`, `F0 30`. -/
theorem test_index :
    next (c8 .chip8 [0xA1, 0x23]) (fun t => t.c8.i == 0x123) = true ∧
    next (c8 .chip8 [0xF0, 0x1E] (fun s => idx 0xFFFF (reg 0xF 3 (reg 0x0 0xFF s))))
      (fun t => t.c8.i == 0x00FE && t.reg 0xF == 3) = true ∧
    next (c8 .chip8 [0xF0, 0x29] (fun s => reg 0x0 0x1A s)) (fun t => t.c8.i == 0x32) = true ∧
    next (c8 .xochip [0xF0, 0x30] (fun s => reg 0x0 3 s)) (fun t => t.c8.i == 0x6E) = true := by
  decide

/-- S9: arm, keep waiting, take the released key. -/
theorem test_key_wait :
    next (c8 .chip8 [0xF3, 0x0A] (fun s => s.updC8 fun c => { c with kwValid := true }))
      (fun t => t.c8.pc == 0x200 && t.c8.kwWait && !t.c8.kwValid) = true ∧
    next (c8 .chip8 [0xF3, 0x0A] (fun s => s.updC8 fun c => { c with kwWait := true }))
      (fun t => t.c8.pc == 0x200 && t.c8.kwWait) = true ∧
    next (c8 .chip8 [0xF3, 0x0A] (fun s => s.updC8 fun c => { c with kwWait := true, kwValid := true, kwIndex := 7 }))
      (fun t => t.c8.pc == 0x202 && t.reg 3 == 7 && !t.c8.kwWait && !t.c8.kwValid) = true := by
  decide

/-- R378: of the keys 9 and 4 released between two executions the last one, 4, is delivered. -/
theorem test_key_wait_last_release :
    next (c8 .chip8 [0xF3, 0x0A] (fun s => (((((s.updC8 fun c => { c with kwWait := true }).setKeyState 4 true).setKeyState 9 true).setKeyState 9 false).setKeyState 4 false)))
      (fun t => t.c8.pc == 0x202 && t.reg 3 == 4) = true := by
  decide

/-- The same instance with the key latch of D37 (log 11). -/
def onFirst (s : State) : State := { s with cfg := { s.cfg with keyEdge := .firstInWait } }

/-- D37 (log 11): of the keys 9 and 4 released during a wait the first one, 9, is delivered; a release outside a wait is not latched. -/
theorem test_key_wait_first_release :
    next (c8 .chip8 [0xF3, 0x0A] (fun s => ((((((onFirst s).updC8 fun c => { c with kwWait := true }).setKeyState 4 true).setKeyState 9 true).setKeyState 9 false).setKeyState 4 false)))
      (fun t => t.c8.pc == 0x202 && t.reg 3 == 9) = true ∧
    next { c8 .chip8 [] (fun s => (onFirst s).setKeyState 7 true) with hostQueue := [.setKeyState 7 false] }
      (fun t => !t.c8.kwValid && t.c8.kwIndex == 0) = true := by
  decide

/-- `F0 33`. -/
theorem test_bcd :
    next (c8 .chip8 [0xF0, 0x33] (fun s => idx 0x300 (reg 0x0 254 s)))
      (fun t => t.peek 0x300 == 2 && t.peek 0x301 == 5 && t.peek 0x302 == 4 && t.c8.i == 0x300) = true := by
  decide

/-- `F2 55`, and `F1 55` over the end of memory. -/
theorem test_store_registers :
    next (c8 .chip8 [0xF2, 0x55] (fun s => idx 0x300 (reg 0x2 3 (reg 0x1 2 (reg 0x0 1 s)))))
      (fun t => t.peek 0x300 == 1 && t.peek 0x301 == 2 && t.peek 0x302 == 3 && t.c8.i == 0x303) = true ∧
    next (c8 .chip8 [0xF1, 0x55] (fun s => idx 0xFFF (reg 0x1 2 (reg 0x0 1 s))))
      (fun t => t.peek 0xFFF == 1 && t.c8.i == 0x1001 && kinds t == [(.outOfBoundsWrite, some 0x1000)]) = true := by
  decide

/-- `F1 65` of its own bytes. -/
theorem test_load_registers :
    next (c8 .chip8 [0xF1, 0x65] (fun s => idx 0x200 s))
      (fun t => t.reg 0 == 0xF1 && t.reg 1 == 0x65 && t.c8.i == 0x202) = true := by
  decide

/-- 2.9: `F1 55` at 0x1000 on CHIP8. -/
theorem test_fault_multiplicity :
    next (c8 .chip8 [0xF1, 0x55] (fun s => idx 0x1000 s))
      (fun t => kinds t == [(.outOfBoundsWrite, some 0x1000), (.outOfBoundsWrite, some 0x1001)]) = true := by
  decide

/-! ## Display (2.7) -/

/-- S5 on CHIP8; with `PLANE` = 0101 a cell holding F keeps A. -/
theorem test_cls :
    next (c8 .chip8 [0x00, 0xE0] (px 5 6 1)) (fun t => t.c8.fb.cell 5 6 == 0 && t.c8.pc == 0x202) = true ∧
    next (c8 .xochip [0x00, 0xE0] (fun s => planes 5 (px 100 50 0xF s)))
      (fun t => t.c8.fb.cell 100 50 == 0xA) = true := by
  decide

/-- `D0 15` of glyph 0: the corners set, the middle not; drawn on a set cell, a collision. -/
theorem test_draw_glyph :
    next (c8 .chip8 [0xD0, 0x15])
      (fun t => t.c8.fb.cell 0 0 == 1 && t.c8.fb.cell 3 4 == 1 && t.c8.fb.cell 1 1 == 0 && t.c8.fb.cell 4 0 == 0 &&
        t.reg 0xF == 0) = true ∧
    next (c8 .chip8 [0xD0, 0x15] (px 0 0 1)) (fun t => t.c8.fb.cell 0 0 == 0 && t.reg 0xF == 1) = true := by
  decide

/-- `D0 12` at (62, 31): both edges wrap (D18). -/
theorem test_draw_wraps :
    next (c8 .chip8 [0xD0, 0x12] (fun s => idx 0x300 (reg 0x1 31 (reg 0x0 62 s))) [(0x300, 0xF0), (0x301, 0xC0)])
      (fun t => t.c8.fb.cell 62 31 == 1 && t.c8.fb.cell 1 31 == 1 && t.c8.fb.cell 2 31 == 0 &&
        t.c8.fb.cell 63 0 == 1 && t.c8.fb.cell 0 0 == 0) = true := by
  decide

/-- `D0 01` in low resolution with `PLANE` = 3: each plane its own byte, 2 x 2 cells. -/
theorem test_draw_planes :
    next (c8 .xochip [0xD0, 0x01] (fun s => planes 3 (idx 0x300 s)) [(0x300, 0x80), (0x301, 0xC0)])
      (fun t => t.c8.fb.cell 0 0 == 3 && t.c8.fb.cell 1 1 == 3 && t.c8.fb.cell 2 0 == 2 && t.c8.fb.cell 3 1 == 2 &&
        t.c8.fb.cell 4 0 == 0 && t.busTrace.length == 4) = true := by
  decide

/-- S7: planes 2 and 3 of a touched pixel stay. -/
theorem test_draw_masked :
    next (c8 .xochip [0xD0, 0x01] (fun s => hi (planes 3 (px 0 0 0xD (idx 0x300 s)))) [(0x300, 0x80), (0x301, 0x80)])
      (fun t => t.c8.fb.cell 0 0 == 0xE && t.reg 0xF == 1) = true := by
  decide

/-- `D0 00` reads 32 bytes a plane; with `PLANE` = 0 none; `D0 10` on CHIP8 none. -/
theorem test_draw_large :
    next (c8 .xochip [0xD0, 0x00] (fun s => idx 0x300 s) [(0x301, 0x01)])
      (fun t => t.busTrace.length == 34 && t.c8.fb.cell 30 0 == 1) = true ∧
    next (c8 .xochip [0xD0, 0x05] (fun s => reg 0xF 9 (planes 0 s)))
      (fun t => t.busTrace.length == 2 && t.reg 0xF == 0) = true ∧
    next (c8 .chip8 [0xD0, 0x10]) (fun t => t.busTrace.length == 2 && t.reg 0xF == 0) = true := by
  decide +kernel

/-- `00 C1` and `00 D1` in high resolution. -/
theorem test_scroll_down_up :
    next (c8 .xochip [0x00, 0xC1] (fun s => hi (px 5 63 1 (px 0 0 3 s))))
      (fun t => t.c8.fb.cell 0 0 == 2 && t.c8.fb.cell 0 1 == 1) = true ∧
    next (c8 .xochip [0x00, 0xD1] (fun s => hi (px 5 1 1 s)))
      (fun t => t.c8.fb.cell 5 0 == 1 && t.c8.fb.cell 5 1 == 0) = true := by
  decide

/-- `00 FB` in both resolutions, `00 FC`. -/
theorem test_scroll_right_left :
    next (c8 .xochip [0x00, 0xFB] (fun s => hi (px 0 0 1 s)))
      (fun t => t.c8.fb.cell 4 0 == 1 && t.c8.fb.cell 0 0 == 0) = true ∧
    next (c8 .xochip [0x00, 0xFB] (fun s => s.setPx 0 0 1))
      (fun t => t.c8.fb.cell 8 1 == 1 && t.c8.fb.cell 9 0 == 1 && t.c8.fb.cell 0 0 == 0) = true ∧
    next (c8 .xochip [0x00, 0xFC] (fun s => hi (px 3 0 1 (px 4 0 1 s))))
      (fun t => t.c8.fb.cell 0 0 == 1 && t.c8.fb.cell 4 0 == 0) = true := by
  decide

/-- `00 FF` and `00 FE` clear every plane. -/
theorem test_resolution :
    next (c8 .xochip [0x00, 0xFF] (px 9 9 0xF)) (fun t => t.xo.hires && t.c8.fb.cell 9 9 == 0) = true ∧
    next (c8 .xochip [0x00, 0xFE] (fun s => hi (px 9 9 0xF s)))
      (fun t => !t.xo.hires && t.c8.fb.cell 9 9 == 0) = true := by
  decide

/-! ## XOCHIP extensions (2.8) -/

/-- `51 32` ascending, `53 12` descending. -/
theorem test_save_range :
    next (c8 .xochip [0x51, 0x32] (fun s => idx 0x300 (reg 0x3 0xC (reg 0x2 0xB (reg 0x1 0xA s)))))
      (fun t => t.peek 0x300 == 0xA && t.peek 0x302 == 0xC && t.c8.i == 0x300) = true ∧
    next (c8 .xochip [0x53, 0x12] (fun s => idx 0x300 (reg 0x3 0xC (reg 0x2 0xB (reg 0x1 0xA s)))))
      (fun t => t.peek 0x300 == 0xC && t.peek 0x302 == 0xA) = true := by
  decide

/-- `51 33` ascending, `53 13` descending. -/
theorem test_load_range :
    next (c8 .xochip [0x51, 0x33] (fun s => idx 0x300 s) [(0x300, 1), (0x301, 2), (0x302, 3)])
      (fun t => t.reg 1 == 1 && t.reg 3 == 3) = true ∧
    next (c8 .xochip [0x53, 0x13] (fun s => idx 0x300 s) [(0x300, 1), (0x301, 2), (0x302, 3)])
      (fun t => t.reg 3 == 1 && t.reg 1 == 3) = true := by
  decide

/-- `F0 00 AB CD`. -/
theorem test_long_index :
    next (c8 .xochip [0xF0, 0x00, 0xAB, 0xCD])
      (fun t => t.c8.i == 0xABCD && t.c8.pc == 0x204 && t.xo.cycles == 1) = true := by
  decide

/-- `F5 01`: the field, not the register; `F0 3A`. -/
theorem test_plane_pitch :
    next (c8 .xochip [0xF5, 0x01] (fun s => reg 0x5 9 s)) (fun t => t.xo.plane == 5) = true ∧
    next (c8 .xochip [0xF0, 0x3A] (fun s => reg 0x0 112 s)) (fun t => t.xo.pitch == 112) = true := by
  decide

/-- `F0 02`. -/
theorem test_audio :
    next (c8 .xochip [0xF0, 0x02] (fun s => idx 0x300 s) [(0x300, 0xA5)])
      (fun t => t.xo.pattern.toList.getD 0 0 == 0xA5 && t.wave 0 && !t.wave 1 && t.wave 7 && t.c8.i == 0x300) = true := by
  decide

/-- `F2 75` and `F2 85`. -/
theorem test_persistent_flags :
    next (c8 .xochip [0xF2, 0x75] (fun s => reg 0x3 5 (reg 0x2 9 (reg 0x1 8 (reg 0x0 7 s)))))
      (fun t => t.xo.flags.toList.take 4 == [7, 8, 9, 0]) = true ∧
    next (c8 .xochip [0xF2, 0x85] (fun s => s.updXo fun o => { o with flags := (((o.flags.set 0 7).set 1 8).set 2 9).set 3 5 }))
      (fun t => t.reg 0 == 7 && t.reg 2 == 9 && t.reg 3 == 0) = true := by
  decide

/-! ## Witnesses

For every statement with hypotheses, concrete states and operands that meet them together, at the boundary values of
each clause. -/

/-- An M6502 between the Fetch of an opcode and its first row. -/
def w65 : State := m65 [0x10, 0x20] (fun c => { c with t := 1, x := 1, y := 2 }) [(0x10, 0xFF), (0x11, 0x30)]

/-- The same with every flag set. -/
def w65f : State := { w65 with m65 := { w65.m65 with p := fl true true true true true true true } }

/-- Its registers at the end of an instruction of one row. -/
def e65 : Cpu65 := { w65.m65 with t := 0 }

/-- The hypothesis all 6502 statements share. -/
theorem witness_fetched65 : w65.fetched65 ∧ w65f.fetched65 := ⟨⟨rfl, rfl⟩, ⟨rfl, rfl⟩⟩

/-- Every mode the rows of the statement name has an effective address at `w65`, so each row is met there. -/
theorem witness_LoadsReplaceRegister : w65.fetched65 ∧
    ([.izx, .zp, .imm, .abs, .izy, .zpx, .aby, .abx, .zpy].all fun m => (w65.effectiveAddr m).isSome) = true := ⟨⟨rfl, rfl⟩, by decide⟩

/-- Every mode the rows of the statement name has an effective address at `w65`, so each row is met there. -/
theorem witness_AddWithCarry : w65.fetched65 ∧
    ([.izx, .zp, .imm, .abs, .izy, .zpx, .aby, .abx].all fun m => (w65.effectiveAddr m).isSome) = true := ⟨⟨rfl, rfl⟩, by decide⟩

/-- Every mode the rows of the statement name has an effective address at `w65`, so each row is met there. -/
theorem witness_SubtractWithBorrow : w65.fetched65 ∧
    ([.izx, .zp, .imm, .abs, .izy, .zpx, .aby, .abx].all fun m => (w65.effectiveAddr m).isSome) = true := ⟨⟨rfl, rfl⟩, by decide⟩

/-- Every mode the rows of the statement name has an effective address at `w65`, so each row is met there. -/
theorem witness_LogicCombinesAccumulator : w65.fetched65 ∧
    ([.izx, .zp, .imm, .abs, .izy, .zpx, .aby, .abx].all fun m => (w65.effectiveAddr m).isSome) = true := ⟨⟨rfl, rfl⟩, by decide⟩

/-- Every mode the rows of the statement name has an effective address at `w65`, so each row is met there. -/
theorem witness_ComparesSetCarryZeroNegative : w65.fetched65 ∧
    ([.izx, .zp, .imm, .abs, .izy, .zpx, .aby, .abx].all fun m => (w65.effectiveAddr m).isSome) = true := ⟨⟨rfl, rfl⟩, by decide⟩

/-- Every mode the rows of the statement name has an effective address at `w65`, so each row is met there. -/
theorem witness_BitTestCopiesOperandBits : w65.fetched65 ∧
    ([.zp, .abs].all fun m => (w65.effectiveAddr m).isSome) = true := ⟨⟨rfl, rfl⟩, by decide⟩

/-- Every mode the rows of the statement name has an effective address at `w65`, so each row is met there. -/
theorem witness_StoresWriteOneByte : w65.fetched65 ∧
    ([.izx, .zp, .abs, .izy, .zpx, .aby, .abx, .zpy].all fun m => (w65.effectiveAddr m).isSome) = true := ⟨⟨rfl, rfl⟩, by decide⟩

/-- Every mode the rows of the statement name has an effective address at `w65`, so each row is met there. -/
theorem witness_IncrementsAndDecrementsMemory : w65.fetched65 ∧
    ([.zp, .abs, .zpx, .abx].all fun m => (w65.effectiveAddr m).isSome) = true := ⟨⟨rfl, rfl⟩, by decide⟩

/-- The memory modes have an effective address at `w65`; the accumulator form has none and needs none. -/
theorem witness_ShiftsAndRotatesMoveOneBit : w65.fetched65 ∧ w65f.fetched65 ∧ w65.effectiveAddr .acc = none ∧
    ([.zp, .abs, .zpx, .abx].all fun m => (w65.effectiveAddr m).isSome) = true := ⟨⟨rfl, rfl⟩, ⟨rfl, rfl⟩, rfl, by decide⟩

/-- The first and the last row of the statement's list, at `w65`. -/
theorem witness_TransfersCopyRegister : w65.fetched65 ∧
    [(Instr.tax, (0xAA : Byte), { e65 with x := e65.a, p := e65.p.withZN e65.a }),
     (.txs, 0x9A, { e65 with s := e65.x })].all (fun r => decide (encode65 r.1 = some r.2.1) && decide (r.2.2.t = 0)) =
      true := ⟨⟨rfl, rfl⟩, by decide⟩

/-- The first and the last row of the statement's list, at `w65`. -/
theorem witness_IndexRegistersCount : w65.fetched65 ∧
    [(Instr.inx, (0xE8 : Byte), { e65 with x := e65.x + 1, p := e65.p.withZN (e65.x + 1) }),
     (.dey, 0x88, { e65 with y := e65.y - 1, p := e65.p.withZN (e65.y - 1) })].all
      (fun r => decide (encode65 r.1 = some r.2.1) && decide (r.2.2.t = 0)) = true := ⟨⟨rfl, rfl⟩, by decide⟩

/-- The first and the last row of the statement's list, at a state with every flag set. -/
theorem witness_FlagInstructionsChangeOneFlag : w65f.fetched65 ∧
    [(Instr.clc, (0x18 : Byte), { e65 with p := { w65f.m65.p with c := false } }), (.nop, 0xEA, e65)].all
      (fun r => decide (encode65 r.1 = some r.2.1) && decide (r.2.2.t = 0)) = true := ⟨⟨rfl, rfl⟩, by decide⟩

/-- Each branch is taken at one of the two states and not taken at the other. -/
theorem witness_BranchesGoToTheSignedTarget : w65.fetched65 ∧ w65f.fetched65 ∧
    (let p := w65.m65.p; [!p.c, p.c, p.z, p.n, !p.z, !p.n, !p.v, p.v]) =
      [true, false, false, false, true, true, true, false] ∧
    (let p := w65f.m65.p; [!p.c, p.c, p.z, p.n, !p.z, !p.n, !p.v, p.v]) =
      [false, true, true, true, false, false, false, true] := ⟨⟨rfl, rfl⟩, ⟨rfl, rfl⟩, by decide, by decide⟩

/-- The one hypothesis, also with the stack pointer at its boundary 0. -/
theorem witness_JumpsReachTheirTarget : w65.fetched65 ∧
    State.fetched65 { w65 with m65 := { w65.m65 with s := 0 } } := ⟨⟨rfl, rfl⟩, ⟨rfl, rfl⟩⟩

/-- The one hypothesis, also with the stack pointer at its boundary 0. -/
theorem witness_SubroutineCallAndReturn : w65.fetched65 ∧
    State.fetched65 { w65 with m65 := { w65.m65 with s := 0 } } := ⟨⟨rfl, rfl⟩, ⟨rfl, rfl⟩⟩

/-- The one hypothesis, also with the stack pointer at its boundary 0. -/
theorem witness_BreakEntersTheTrap : w65.fetched65 ∧
    State.fetched65 { w65 with m65 := { w65.m65 with s := 0 } } := ⟨⟨rfl, rfl⟩, ⟨rfl, rfl⟩⟩

/-- The one hypothesis, also with the stack pointer at its boundary 0. -/
theorem witness_ReturnFromInterruptRestores : w65.fetched65 ∧
    State.fetched65 { w65 with m65 := { w65.m65 with s := 0 } } := ⟨⟨rfl, rfl⟩, ⟨rfl, rfl⟩⟩

/-- The one hypothesis, also with the stack pointer at its boundary 0. -/
theorem witness_PushesStoreOnTheStack : w65.fetched65 ∧
    State.fetched65 { w65 with m65 := { w65.m65 with s := 0 } } := ⟨⟨rfl, rfl⟩, ⟨rfl, rfl⟩⟩

/-- The one hypothesis, also with the stack pointer at its boundary 0. -/
theorem witness_PullsLoadFromTheStack : w65.fetched65 ∧
    State.fetched65 { w65 with m65 := { w65.m65 with s := 0 } } := ⟨⟨rfl, rfl⟩, ⟨rfl, rfl⟩⟩

/-- An instruction with a mnemonic and a mode, at a fetched state. -/
theorem witness_MicroCycleCounts : Instr.brk.m65 = some (.brk, .imp) ∧ Instr.incAbx.m65 = some (.inc, .abx) ∧
    w65.fetched65 := ⟨rfl, rfl, ⟨rfl, rfl⟩⟩

/-- A legal and an illegal opcode at `PC`, no instruction in flight. -/
theorem witness_FetchLatchesOrReports : (m65 [0xA9]).cfg.arch.is65 = true ∧ (m65 [0xA9]).m65.t = 0 ∧
    decode65 ((m65 [0xA9]).peekW (m65 [0xA9]).m65.pc) = .ok .ldaImm ∧ (m65 [0x02]).m65.t = 0 ∧
    decode65 ((m65 [0x02]).peekW (m65 [0x02]).m65.pc) = .error (.illegalOpcode 0x02) := ⟨rfl, rfl, rfl, rfl, rfl⟩

/-- The 6502 between instructions and in flight (the third row of `LDA abs`). -/
theorem witness_StepRunsDecodedInstruction_65 : (m65 [0xA9]).hostQueue = [] ∧ (m65 [0xA9]).m65.t = 0 ∧
    decode65 ((m65 [0xA9]).peekW (m65 [0xA9]).m65.pc) = .ok .ldaImm ∧
    (m65 [] fun c => { c with ir := 0xAD, t := 3 }).m65.t ≠ 0 ∧
    decode65 (m65 [] fun c => { c with ir := 0xAD, t := 3 }).m65.ir = .ok .ldaAbs :=
  ⟨rfl, rfl, rfl, by decide, rfl⟩

/-- The last `PC` whose fetch is inside the memory of CHIP8, the one whose second byte is outside, and an XOCHIP whose
breakpoint stands elsewhere. -/
theorem witness_StepRunsDecodedInstruction_c8 :
    (let s := c8 .chip8 [] (fun s => s.setPc 0xFFE) [(0xFFE, 0x12), (0xFFF, 0x34)]
     s.hostQueue = [] ∧ s.cfg.arch.is65 = false ∧
     decodeC8 s.cfg.arch (mkWord (s.readVal s.c8.pc.toNat) (s.readVal (s.c8.pc.toNat + 1))) = .ok (.jp 0x234)) ∧
    (let s := c8 .chip8 [] (fun s => s.setPc 0xFFF) [(0xFFF, 0x60)]
     s.hostQueue = [] ∧ s.fetchReports.length = 1 ∧
     decodeC8 s.cfg.arch (mkWord (s.readVal s.c8.pc.toNat) (s.readVal (s.c8.pc.toNat + 1))) = .ok (.ldImm 0 0)) ∧
    (let s := (c8 .xochip [0xF3, 0x01]).setBreakpoint 0x202
     s.xo.halted = false ∧ s.xo.bpEn = true ∧ s.c8.pc ≠ s.xo.bpAddr ∧
     decodeC8 s.cfg.arch (mkWord (s.readVal s.c8.pc.toNat) (s.readVal (s.c8.pc.toNat + 1))) = .ok (.plane 3)) :=
  ⟨⟨rfl, rfl, rfl⟩, ⟨rfl, by decide, rfl⟩, rfl, rfl, by decide, rfl⟩

/-- A host operation pending. -/
theorem witness_StepRunsDecodedInstruction_host :
    ({ c8 .chip8 [] with hostQueue := [.decayTimers, .tick 1] } : State).hostQueue = .decayTimers :: [.tick 1] := rfl

/-- `T` = 0, and the last row of the longest instruction. -/
theorem witness_TickIsOneBusOperation : (m65 []).cfg.arch.is65 = true ∧ (m65 []).inFlightLegal = true ∧
    (m65 [] fun c => { c with ir := 0x00, t := 6 }).inFlightLegal = true ∧
    (m65 [] fun c => { c with ir := 0xFE, t := 6 }).inFlightLegal = true ∧
    (m65 [] fun c => { c with ir := 0xFE, t := 7 }).inFlightLegal = false := by decide

/-- A state at `T` = 0 with a legal opcode, and one in flight. -/
theorem witness_InstructionIsItsTicks : (m65 [0xA9]).m65.t = 0 ∧
    decode65 ((m65 [0xA9]).peekW (m65 [0xA9]).m65.pc) = .ok .ldaImm ∧ Instr.ldaImm.m65 = some (.lda, .imm) ∧
    (m65 [] fun c => { c with ir := 0xAD, t := 3 }).inFlightLegal = true := ⟨rfl, rfl, rfl, by decide⟩

/-- Two fetched states that differ in the scratch fields alone. -/
theorem witness_ScratchIsNotObserved :
    let s' := { w65 with m65 := { w65.m65 with adl := 9, adh := 8, ptr := 7, data := 6, pgx := true } }
    w65.fetched65 ∧ Instr.ldaIzy.m65.isSome = true ∧ s'.m65.visible = w65.m65.visible ∧
      s' = { w65 with m65 := s'.m65 } ∧ s'.m65 ≠ w65.m65 := ⟨⟨rfl, rfl⟩, rfl, rfl, rfl, by decide⟩

/-- A CHIP8 with `SP` entries on the stack. -/
def wStack (a : Arch) (n : Byte) : State := c8 a [] fun s => s.updC8 fun c => { c with sp := n }

/-- Both architectures one below the depth and at it; an empty and a non-empty stack. -/
theorem witness_CallStackNeverOverflows :
    (wStack .chip8 11).c8.sp.toNat < (wStack .chip8 11).cfg.arch.stackDepth ∧
    (wStack .chip8 12).c8.sp.toNat = (wStack .chip8 12).cfg.arch.stackDepth ∧
    (wStack .xochip 15).c8.sp.toNat < (wStack .xochip 15).cfg.arch.stackDepth ∧
    (wStack .xochip 16).c8.sp.toNat = (wStack .xochip 16).cfg.arch.stackDepth ∧
    (wStack .chip8 1).c8.sp ≠ 0 ∧ (wStack .chip8 0).c8.sp = 0 := by decide

/-- Each skip's condition is true at one state and false at the other; key F and register F are the boundary. -/
theorem witness_SkipsStepOverTheNextInstruction :
    (let s := reg 0xF 0x0F ((c8 .xochip []).setKeyState 0xF true)
     s.reg 0xF = 0x0F ∧ s.reg 0xF ≠ 0x10 ∧ s.reg 0xF ≠ s.reg 0 ∧
       s.c8.key.toList.getD ((s.reg 0xF).toNat % 16) false = true) ∧
    (let s := reg 0xF 0x0F (reg 0 0x0F (c8 .chip8 []))
     s.reg 0xF = s.reg 0 ∧ s.c8.key.toList.getD ((s.reg 0xF).toNat % 16) false = false) := by decide

/-- The first and the last row of the statement's list. -/
theorem witness_RegisterMovesAndTimers :
    let s := reg 0xF 0xFF (c8 .chip8 [])
    (Instr.addImm 0xF 1, (0 : Byte)) ∈
      [(Instr.ldImm 0xF 1, (1 : Byte)), (.addImm 0xF 1, BitVec.ofNat 8 ((s.reg 0xF).toNat + 1)),
       (.ldReg 0xF 0, s.reg 0), (.ldVxDt 0xF, s.c8.dt)] := by decide

/-- A row of the list under both settings of the quirk, with the destination the flag register. -/
theorem witness_LogicGroupResetsVF :
    (let s := reg 0xF 0xF0 (c8 .chip8 [])
     s.cfg.qLogicVfReset = true ∧ (Instr.orReg 0xF 0, (0xF0 : Byte)) ∈ [(Instr.orReg 0xF 0, s.reg 0xF ||| s.reg 0)]) ∧
    (c8 .xochip []).cfg.qLogicVfReset = false := by decide

/-- Every row of the list, with a carry and with a borrow. -/
theorem witness_ArithmeticGroupSetsVF :
    let s := reg 0 0xFF (reg 1 0x01 (c8 .chip8 []))
    ((Instr.addReg 0 1, (0x00 : Byte), true) ∈
      [(Instr.addReg 0 1, BitVec.ofNat 8 ((s.reg 0).toNat + (s.reg 1).toNat),
        decide (256 ≤ (s.reg 0).toNat + (s.reg 1).toNat))]) ∧
    ((Instr.subReg 1 0, (0x02 : Byte), false) ∈
      [(Instr.subReg 1 0, BitVec.ofInt 8 (((s.reg 1).toNat : Int) - (s.reg 0).toNat),
        decide ((s.reg 0).toNat ≤ (s.reg 1).toNat))]) ∧
    ((Instr.subnReg 1 0, (0xFE : Byte), true) ∈
      [(Instr.subnReg 1 0, BitVec.ofInt 8 (((s.reg 0).toNat : Int) - (s.reg 1).toNat),
        decide ((s.reg 1).toNat ≤ (s.reg 0).toNat))]) := by decide

/-- Both rows of the list, under both settings of the quirk. -/
theorem witness_ShiftGroupSetsVF :
    (let s := reg 0 0xFF (reg 1 0x05 (c8 .chip8 []))
     let src := (if s.cfg.qShiftVy then s.reg 1 else s.reg 0).toNat
     (Instr.shrReg 0 1, (2 : Byte), 1) ∈ [(Instr.shrReg 0 1, BitVec.ofNat 8 (src / 2), src % 2)]) ∧
    (let s := reg 0 0xFF (reg 1 0x05 { c8 .chip8 [] with cfg := { (c8 .chip8 []).cfg with qShiftVy := false } })
     let src := (if s.cfg.qShiftVy then s.reg 1 else s.reg 0).toNat
     (Instr.shlReg 0 1, (0xFE : Byte), 1) ∈ [(Instr.shlReg 0 1, BitVec.ofNat 8 (2 * src), src / 128)]) := by decide

/-- Every row of the list; the sum of `ADD I, Vx` wraps. -/
theorem witness_IndexRegisterWrites :
    let s := reg 0 0xFF (idx 0xFFFF (c8 .xochip []))
    (Instr.addI 0, 65790) ∈
      [(Instr.ldI 0xFFF, 4095), (.addI 0, s.c8.i.toNat + (s.reg 0).toNat), (.ldF 0, 5 * ((s.reg 0).toNat % 16)),
       (.ldHf 0, 0x50 + 10 * ((s.reg 0).toNat % 16))] := by decide

/-- The three phases of the key wait, and two keys held, 0 and F, during a wait. -/
theorem witness_KeyWaitReexecutesUntilRelease : (c8 .chip8 []).c8.kwWait = false ∧
    (let s := c8 .chip8 [] fun s => s.updC8 fun c => { c with kwWait := true, kwValid := true }
     s.c8.kwWait = true ∧ s.c8.kwValid = true) ∧
    (let s := c8 .chip8 [] fun s => s.updC8 fun c => { c with kwWait := true }
     s.c8.kwWait = true ∧ s.c8.kwValid = false) ∧
    (let s := (((c8 .chip8 []).setKeyState 0 true).setKeyState 0xF true).updC8 fun c => { c with kwWait := true }
     s.cfg.arch.is65 = false ∧ s.c8.kwWait = true ∧ (0 : BitVec 4) ≠ 0xF ∧ s.keyDown 0 = true ∧ s.keyDown 0xF = true) := by
  decide

/-- Two keys held during a wait, on an instance that follows D37, before the first edge and after one. -/
theorem witness_KeyWaitReexecutesUntilRelease_first :
    (let s := (((c8 .chip8 [] onFirst).setKeyState 0 true).setKeyState 0xF true).updC8 fun c => { c with kwWait := true }
     s.cfg.keyEdge = .firstInWait ∧ s.cfg.arch.is65 = false ∧ s.c8.kwWait = true ∧ s.keyDown 0 = true ∧
     s.keyDown 0xF = true ∧ s.c8.kwValid = false) ∧
    (let s := (((c8 .chip8 [] onFirst).setKeyState 0 true).setKeyState 0xF true).updC8 fun c =>
       { c with kwWait := true, kwValid := true }
     s.cfg.keyEdge = .firstInWait ∧ s.c8.kwWait = true ∧ s.keyDown 0 = true ∧ s.keyDown 0xF = true ∧
     s.c8.kwValid = true) := by
  decide

/-- Both rows of the list of `LOW` and `HIGH`, and the three pitch values. -/
theorem witness_XochipControlsWriteOneRegister :
    (Instr.low, false) ∈ [(Instr.low, false), (.high, true)] ∧ (Instr.high, true) ∈ [(Instr.low, false), (.high, true)] ∧
    (reg 0 64 (c8 .xochip [])).reg 0 = 64 ∧ (reg 0 112 (c8 .xochip [])).reg 0 = 112 ∧
    (reg 0 16 (c8 .xochip [])).reg 0 = 16 ∧ (c8 .xochip []).cfg.arch = .xochip ∧
    (c8 .chip8 []).cfg.arch ≠ .xochip := by decide

/-- An XOCHIP in each resolution, and a row of the list at the largest distance. -/
theorem witness_ScrollsMoveSelectedPlanes : (c8 .xochip []).cfg.arch = .xochip ∧ (c8 .xochip []).pixelSide = 2 ∧
    (hi (c8 .xochip [])).pixelSide = 1 ∧
    (Instr.scu 15, (0 : Int), (-15 : Int)) ∈
      [(Instr.scd 15, (0 : Int), (((15 : BitVec 4).toNat : Nat) : Int)), (.scu 15, 0, -(((15 : BitVec 4).toNat : Nat) : Int)),
       (.scr, 4, 0), (.scl, -4, 0)] := by decide

/-- An unknown word whose fetch is inside the memory, half outside and wholly outside, and a machine-code call. -/
theorem witness_UnknownOpcodeIsOneRecord :
    (let s := c8 .chip8 [] (fun s => s.setPc 0xFFE) [(0xFFE, 0xFF), (0xFFF, 0xFF)]
     s.cfg.arch.is65 = false ∧ s.fetchReports.length = 0 ∧
     decodeC8 s.cfg.arch (mkWord (s.readVal s.c8.pc.toNat) (s.readVal (s.c8.pc.toNat + 1))) =
       .error (.unknownOpcode 0xFFFF)) ∧
    (let s := c8 .chip8 [] (fun s => s.setPc 0xFFF) [(0xFFF, 0xFF)]
     s.fetchReports.length = 1 ∧
     decodeC8 s.cfg.arch (mkWord (s.readVal s.c8.pc.toNat) (s.readVal (s.c8.pc.toNat + 1))) =
       .error (.unknownOpcode 0xFF00)) ∧
    (let s := c8 .chip8 [] (fun s => s.setPc 0x1000)
     s.cfg.arch = .chip8 ∧ 0x1000 ≤ s.c8.pc.toNat ∧ s.fetchReports.length = 2) ∧
    (0x123 : BitVec 12) ≠ 0x0E0 ∧ (0x123 : BitVec 12) ≠ 0x0EE :=
  ⟨⟨rfl, by decide, rfl⟩, ⟨by decide, rfl⟩, ⟨rfl, by decide, by decide⟩, by decide, by decide⟩

/-- The last address inside each memory and the first outside. -/
theorem witness_BusReadsBackAndReportsOnce : 0xFFF < (c8 .chip8 []).cfg.memSize ∧ (c8 .chip8 []).cfg.memSize ≤ 0x1000 ∧
    0xFFFF < (m65 []).cfg.memSize ∧ (m65 []).cfg.memSize ≤ 0x10000 := by decide

/-- A halted XOCHIP, one about to halt, and an instance without a breakpoint. -/
theorem witness_BreakpointHaltsUntilCleared :
    (let s := c8 .xochip [] fun s => s.updXo fun o => { o with halted := true }
     s.cfg.arch = .xochip ∧ s.xo.halted = true) ∧
    (let s := (c8 .xochip []).setBreakpoint 0x200
     s.xo.halted = false ∧ s.xo.bpEn = true ∧ s.c8.pc = s.xo.bpAddr) ∧
    (c8 .chip8 []).cfg.arch ≠ .xochip := by decide

/-- Display wait off, on with a `DRW` at `PC`, and on with another opcode there. -/
theorem witness_TickBudgetIsSplitOrTruncated :
    ((c8 .chip8 []).cfg.displayWait = false ∧ (c8 .chip8 []).cfg.arch.is65 = false) ∧
    (let s := c8 .chip8 [0xD0, 0x15] fun s => { s with cfg := { s.cfg with displayWait := true } }
     s.cfg.arch = .chip8 ∧ s.cfg.displayWait = true ∧ s.readVal2 s.c8.pc.toNat = 0xD#4 ++ 0#4 ++ 1#4 ++ 5#4) ∧
    (let s := c8 .chip8 [0xC0, 0xFF] fun s => { s with cfg := { s.cfg with displayWait := true } }
     s.cfg.arch = .chip8 ∧ s.cfg.displayWait = true ∧ opTop (s.readVal2 s.c8.pc.toNat) ≠ 0xD) := by decide

/-- An instance of the CHIP-8 family with timers at and above 0. -/
theorem witness_TimersDecayToZero : (c8 .chip8 []).cfg.arch.is65 = false ∧ (c8 .chip8 []).c8.st = 0 ∧
    (c8 .chip8 [] fun s => s.updC8 fun c => { c with st := 1 }).c8.st.toNat = 1 := by decide

/-- An instance of each kind, and cells at the corners of both grids. -/
theorem witness_ReadsAnswerOnTheirArchitectures : (m65 []).cfg.arch.is65 = true ∧
    (c8 .chip8 []).cfg.arch.is65 = false ∧ (c8 .chip8 []).cfg.arch ≠ .xochip ∧ (c8 .chip8 []).fbSize = (64, 32) ∧
    (c8 .xochip []).cfg.arch.is65 = false ∧ (c8 .xochip []).cfg.arch = .xochip ∧ (c8 .xochip []).fbSize = (128, 64) := by
  decide

/-- Key F released, key F pressed, and the first index outside the domain. -/
theorem witness_ReleaseEdgesAreLatched :
    (let s := (c8 .chip8 []).setKeyState 15 true
     s.cfg.arch.is65 = false ∧ 15 < 16 ∧ 16 ≤ 16 ∧ s.c8.key.toList.getD 15 false = true) ∧
    (let s := ((c8 .chip8 [] onFirst).setKeyState 15 true).updC8 fun c => { c with kwWait := true }
     s.cfg.keyEdge = .firstInWait ∧ s.c8.key.toList.getD 15 false = true ∧ s.c8.kwWait = true ∧ s.c8.kwValid = false) ∧
    (c8 .chip8 []).c8.key.toList.getD 15 false = false := by decide

/-- An instance of each family. -/
theorem witness_ResetAndPowerOnValues : (m65 []).cfg.arch.is65 = true ∧ (c8 .chip8 []).cfg.arch.is65 = false ∧
    239 < (c8 .xochip []).cfg.memSize := by decide

/-- An address the load writes, the last one, and one past the memory. -/
theorem witness_LoadProgramCopiesBytes :
    (let s := c8 .chip8 []
     0x200 ≤ 0xFFF ∧ 0xFFF < 0x200 + 3585 ∧ 0xFFF < s.cfg.memSize ∧ ¬ 0x1000 < s.cfg.memSize ∧
       s.cfg.arch.is65 = false) ∧
    (m65 []).cfg.arch.is65 = true := by decide

/-- An instruction of each table on an architecture that has it, and bytes that decode with a rest. -/
theorem witness_DecodeAndEncodeAgree : Instr.wellFormed .n6502 .brk = true ∧ Instr.wellFormed .chip8 (.jp 0xFFF) = true ∧
    Instr.wellFormed .xochip (.plane 0xF) = true ∧ decode .xochip [0xF0, 0x00, 0xAB] = .ok (.ldILong, [0xAB]) :=
  ⟨rfl, rfl, rfl, rfl⟩

/-- A legal M6502 state with memory and an instruction in flight. -/
theorem witness_inv65 : Inv (m65 [0x10, 0x20] fun c => { c with ir := 0xAD, t := 3 }) where
  memory := by decide
  stack := by decide
  inFlight := by decide
  blocks := fun h => by cases h
  grid := fun h => by cases h
  absent := ⟨rfl, rfl⟩
  keyWait := fun h => by cases h

/-- A legal XOCHIP state with a full stack, in low resolution. -/
theorem witness_invXo : Inv (wStack .xochip 16) where
  memory := by decide
  stack := by decide
  inFlight := by decide
  blocks := fun _ _ x y _ _ => by
    show FrameBuf.blank.cell x y = FrameBuf.blank.cell (x / 2 * 2) (y / 2 * 2)
    simp
  grid := fun h => by cases h
  absent := rfl
  keyWait := fun h => by cases h

/-- From legal states the step answers a next state. -/
theorem witness_InvariantIsKept : Inv (wStack .xochip 16) ∧ next (wStack .xochip 16) (fun _ => true) = true ∧
    Inv (m65 [0x10, 0x20] fun c => { c with ir := 0xAD, t := 3 }) ∧
    next (m65 [0x10, 0x20] fun c => { c with ir := 0xAD, t := 3 }) (fun _ => true) = true :=
  ⟨witness_invXo, by decide, witness_inv65, by decide⟩

/-- Legal states with no host operation and with an allowed one. -/
theorem witness_MachineNeverStops : Inv (wStack .xochip 16) ∧ (wStack .xochip 16).hostQueue.head? = none ∧
    HostOp.allowed .chip8 (.setKeyState 15 true) = true ∧ HostOp.allowed .m6502 (.tick 0) = true ∧
    HostOp.allowed .chip8 (.setKeyState 16 true) = false := ⟨witness_invXo, rfl, rfl, rfl, rfl⟩

/-- A step other than `PowerOn`, from a log that holds a record, that appends one. -/
theorem witness_FaultLogOnlyGrows :
    let s := (c8 .chip8 [0xFF, 0xFF]).raise .stackUnderflow none
    s.hostQueue.head? ≠ some .powerOn ∧ next s (fun t => t.faultLog.length == 2) = true := ⟨by decide, by decide⟩

end Sys2Proof.Tests
end

section
/-! PROOF. What every step but `PowerOn` keeps, said once: the parameters of R6, the legal states, and the records
already in `FAULTLOG`. Each shared operation has one lemma, and each instruction and host operation is a chain of them. -/

namespace Sys2Proof.Machine

-- The theorems one after the other: elaborated at once they ask for a thread each.
set_option Elab.async false

/-- A next state that an outcome answers has the property; a fault or a refusal answers none. -/
def OnNext (P : State → Prop) : Host.Outcome State Fault Refusal → Prop
  | .next t => P t
  | .fault _ => True
  | .refused _ => True

theorem OnNext.mono {P Q : State → Prop} {o : Host.Outcome State Fault Refusal} (h : OnNext P o)
    (hpq : ∀ t, P t → Q t) : OnNext Q o := by
  cases o with
  | next t => exact hpq t h
  | fault _ => trivial
  | refused _ => trivial

theorem OnNext.of_eq {P : State → Prop} {o : Host.Outcome State Fault Refusal} {t : State} (h : OnNext P o)
    (he : o = .next t) : P t := by
  subst he
  exact h

/-- From `s` to `t` the parameters and the legality stay, and `FAULTLOG` only grows. -/
structure Keeps (s t : State) : Prop where
  cfg : t.cfg = s.cfg
  inv : Inv s → Inv t
  log : s.faultLog <+: t.faultLog

theorem Keeps.refl (s : State) : Keeps s s := ⟨rfl, id, List.prefix_rfl⟩

theorem Keeps.trans {s t u : State} (h : Keeps s t) (h' : Keeps t u) : Keeps s u :=
  ⟨h'.cfg.trans h.cfg, h'.inv ∘ h.inv, h.log.trans h'.log⟩

/-! ## The legal states by family -/

theorem absentAtReset_of65 {s : State} (h : s.cfg.arch.is65 = true) :
    s.absentAtReset ↔ s.c8 = CpuC8.afterReset ∧ s.xo = XoState.afterPowerOn := by
  unfold State.absentAtReset
  cases ha : s.cfg.arch <;> simp_all [Arch.is65]

theorem absentAtReset_ofC8 {s : State} (h : s.isC8) :
    s.absentAtReset ↔ s.m65 = Cpu65.afterReset 0 ∧ (s.cfg.arch = .chip8 → s.xo = XoState.afterPowerOn) := by
  unfold State.absentAtReset
  cases ha : s.cfg.arch <;> simp_all [State.isC8, Arch.is65]

/-- On the CHIP-8 family the absent state is the 6502 registers, and on CHIP8 that of XOCHIP too. -/
theorem absentAtReset_c8_of_same {s t : State} (hc : s.isC8) (h : s.absentAtReset) (hcfg : t.cfg = s.cfg)
    (hm65 : t.m65 = s.m65) (hxo : s.cfg.arch = .chip8 → t.xo = s.xo) : t.absentAtReset := by
  obtain ⟨hm, hx⟩ := (absentAtReset_ofC8 hc).mp h
  refine (absentAtReset_ofC8 (by rw [State.isC8, hcfg]; exact hc)).mpr ⟨hm65.trans hm, fun h8 => ?_⟩
  rw [hcfg] at h8
  exact (hxo h8).trans (hx h8)

theorem isC8_of_xochip {s : State} (h : s.cfg.arch = .xochip) : s.isC8 := by
  simp [State.isC8, h, Arch.is65]

/-- No clause of the legal states speaks of the logs, the pending host operations or the random stream. -/
theorem Inv.of_same {s t : State} (h : Inv s) (hcfg : t.cfg = s.cfg) (hmem : Mem.wf s.cfg t.mem = true)
    (hm65 : t.m65 = s.m65) (hc8 : t.c8 = s.c8) (hxo : t.xo = s.xo) : Inv t := by
  obtain ⟨⟩ := s
  obtain ⟨⟩ := t
  dsimp only at hcfg hm65 hc8 hxo
  subst hcfg hm65 hc8 hxo
  exact ⟨hmem, h.stack, h.inFlight, h.blocks, h.grid, h.absent, h.keyWait⟩

/-- On the 6502 family the registers change freely, as long as `T` names a row. -/
theorem Inv.of_m65 {s t : State} (h : Inv s) (h65 : s.cfg.arch.is65 = true)
    (ht : t = { s with m65 := t.m65 }) (hT : t.inFlightLegal = true) : Inv t := by
  rw [ht] at hT ⊢
  have hab := (absentAtReset_of65 h65).mp h.absent
  exact ⟨h.memory, h.stack, hT, h.blocks, h.grid, (absentAtReset_of65 (s := { s with m65 := t.m65 }) h65).mpr hab,
    h.keyWait⟩

/-! ## The bus and the fault report keep everything, on every architecture -/

theorem keeps_raise (s : State) (k : FaultKind) (info : Option Nat) : Keeps s (s.raise k info) :=
  ⟨rfl, fun h => h.of_same rfl h.memory rfl rfl rfl, by simp⟩

theorem keeps_afterRead (s : State) (a : Nat) : Keeps s (s.afterRead a) where
  cfg := by simp
  inv h := h.of_same (by simp) (by simpa using h.memory) (by simp) (by simp) (by simp)
  log := by
    rw [State.afterRead_faultLog]
    split <;> simp

theorem keeps_afterRead2 (s : State) (a : Nat) : Keeps s (s.afterRead2 a) :=
  (keeps_afterRead s a).trans (keeps_afterRead _ _)

theorem keeps_memWrite (s : State) (a : Nat) (v : Byte) : Keeps s (s.memWrite a v) where
  cfg := by simp
  inv h := h.of_same (by simp) (State.memWrite_wf s a v h.memory) (by simp) (by simp) (by simp)
  log := by
    rw [State.memWrite_faultLog]
    split <;> simp

theorem keeps_writeBytes (s : State) (a : Nat) (bytes : List Byte) : Keeps s (s.writeBytes a bytes) := by
  induction bytes generalizing s a with
  | nil => exact Keeps.refl s
  | cons b rest ih => exact (keeps_memWrite s a b).trans (ih _ _)

theorem keeps_hostQueue (s : State) (q : List HostOp) : Keeps s { s with hostQueue := q } :=
  ⟨rfl, fun h => h.of_same rfl h.memory rfl rfl rfl, List.prefix_rfl⟩

theorem keeps_randDraws (s : State) (n : Nat) : Keeps s { s with randDraws := n } :=
  ⟨rfl, fun h => h.of_same rfl h.memory rfl rfl rfl, List.prefix_rfl⟩

/-! ## What keeps the legal states on the CHIP-8 family -/

/-- `Keeps`, on the CHIP-8 family. -/
def KeepsC8 (s t : State) : Prop := s.isC8 → Keeps s t

theorem Keeps.c8 {s t : State} (h : Keeps s t) : KeepsC8 s t := fun _ => h

theorem KeepsC8.refl (s : State) : KeepsC8 s s := (Keeps.refl s).c8

theorem KeepsC8.trans {s t u : State} (h : KeepsC8 s t) (h' : KeepsC8 t u) : KeepsC8 s u := fun hc =>
  (h hc).trans (h' (by rw [State.isC8, (h hc).cfg]; exact hc))

/-- A change of the CHIP-8 registers that leaves `FB` alone, `SP` within its depth and the key latch in a wait. -/
theorem keepsC8_updC8 {s : State} {f : CpuC8 → CpuC8} (hfb : (f s.c8).fb = s.c8.fb := by rfl)
    (hsp : s.c8.sp.toNat ≤ s.cfg.arch.stackDepth → (f s.c8).sp.toNat ≤ s.cfg.arch.stackDepth := by exact id)
    (hkw : s.cfg.keyEdge = .firstInWait → (s.c8.kwValid = true → s.c8.kwWait = true) →
      (f s.c8).kwValid = true → (f s.c8).kwWait = true := by exact fun _ h => h) :
    KeepsC8 s (s.updC8 f) := fun hc =>
  { cfg := rfl
    inv := fun h =>
      { memory := h.memory
        stack := hsp h.stack
        inFlight := h.inFlight
        blocks := by simpa [State.blocksEqual, hfb] using h.blocks
        grid := by simpa [State.chip8Grid, hfb] using h.grid
        absent := absentAtReset_c8_of_same hc h.absent rfl rfl fun _ => rfl
        keyWait := fun he => hkw he (h.keyWait he) }
    log := List.prefix_rfl }

theorem keepsC8_setReg (s : State) (x : BitVec 4) (b : Byte) : KeepsC8 s (s.setReg x b) := keepsC8_updC8

theorem keepsC8_setPc (s : State) (w : Word) : KeepsC8 s (s.setPc w) := keepsC8_updC8

theorem keepsC8_setI (s : State) (w : Word) : KeepsC8 s (s.setI w) := keepsC8_updC8

theorem keepsC8_setWithFlag (s : State) (x : BitVec 4) (r f : Byte) : KeepsC8 s (s.setWithFlag x r f) :=
  (keepsC8_setReg s x r).trans (keepsC8_setReg _ _ _)

theorem keepsC8_setLogic (s : State) (x : BitVec 4) (r : Byte) : KeepsC8 s (s.setLogic x r) := by
  unfold State.setLogic
  split
  · exact keepsC8_setWithFlag s x r 0
  · exact keepsC8_setReg s x r

theorem keepsC8_advanceI (s : State) (x : BitVec 4) : KeepsC8 s (s.advanceI x) := by
  unfold State.advanceI
  split
  · exact keepsC8_setI s _
  · exact KeepsC8.refl s

theorem keepsC8_skipIf (s : State) (cond : Bool) : KeepsC8 s (s.skipIf cond) := by
  unfold State.skipIf State.skip
  split
  · split
    · exact (keeps_afterRead2 s _).c8.trans (keepsC8_setPc _ _)
    · exact keepsC8_setPc s _
  · exact KeepsC8.refl s

theorem keepsC8_storeRegs (s : State) (a : Nat) (rs : List (BitVec 4)) : KeepsC8 s (s.storeRegs a rs) := by
  induction rs generalizing s a with
  | nil => exact KeepsC8.refl s
  | cons r rest ih => exact (keeps_memWrite s a (s.reg r)).c8.trans (ih _ _)

theorem keepsC8_loadRegs (s : State) (a : Nat) (rs : List (BitVec 4)) : KeepsC8 s (s.loadRegs a rs) := by
  induction rs generalizing s a with
  | nil => exact KeepsC8.refl s
  | cons r rest ih => exact ((keeps_afterRead s a).c8.trans (keepsC8_setReg _ r _)).trans (ih _ _)

/-- A change of the XOCHIP registers that leaves `HIRES` alone. -/
theorem keepsC8_updXo {s : State} {f : XoState → XoState} (hx : s.cfg.arch = .xochip)
    (hh : (f s.xo).hires = s.xo.hires := by rfl) : KeepsC8 s (s.updXo f) := fun hc =>
  { cfg := rfl
    inv := fun h =>
      { memory := h.memory
        stack := h.stack
        inFlight := h.inFlight
        blocks := by simpa [State.blocksEqual, hh] using h.blocks
        grid := h.grid
        absent := absentAtReset_c8_of_same hc h.absent rfl rfl fun h8 => absurd (hx.symm.trans h8) (by decide)
        keyWait := h.keyWait }
    log := List.prefix_rfl }

theorem keepsC8_loadPattern {s : State} (hx : s.cfg.arch = .xochip) (a i k : Nat) : KeepsC8 s (s.loadPattern a i k) := by
  induction k generalizing s i with
  | zero => exact KeepsC8.refl s
  | succ k ih =>
    exact ((keeps_afterRead s (a + i)).c8.trans (keepsC8_updXo (by simpa using hx))).trans (ih (by simpa using hx) _)

theorem keepsC8_saveFlags {s : State} (hx : s.cfg.arch = .xochip) (rs : List (BitVec 4)) :
    KeepsC8 s (s.saveFlags rs) := by
  rw [State.saveFlags_eq]
  exact keepsC8_updXo hx

theorem keepsC8_restoreFlags (s : State) (rs : List (BitVec 4)) : KeepsC8 s (s.restoreFlags rs) := by
  rw [State.restoreFlags_eq]
  exact keepsC8_updC8

/-! ## The framebuffer (R47, R55) -/

/-- A new framebuffer whose low-resolution blocks are whole and which stays in the grid of CHIP8. -/
theorem keepsC8_setFb {s : State} {fb : FrameBuf} (hb : s.blocksEqual → (s.setFb fb).blocksEqual)
    (hg : s.chip8Grid → (s.setFb fb).chip8Grid) : KeepsC8 s (s.setFb fb) := fun hc =>
  { cfg := rfl
    inv := fun h =>
      { memory := h.memory
        stack := h.stack
        inFlight := h.inFlight
        blocks := hb h.blocks
        grid := hg h.grid
        absent := absentAtReset_c8_of_same hc h.absent rfl rfl fun _ => rfl
        keyWait := h.keyWait }
    log := List.prefix_rfl }

/-- Off CHIP8 its grid is no matter. -/
theorem chip8Grid_of_xochip {s : State} (hx : s.cfg.arch = .xochip) : s.chip8Grid := fun h8 =>
  absurd (hx.symm.trans h8) (by decide)

theorem keepsC8_clear (s : State) : KeepsC8 s (s.setFb FrameBuf.blank) :=
  keepsC8_setFb (fun _ _ _ _ _ _ _ => by simp) (fun _ _ _ _ => by simp)

theorem keepsC8_clearPlanes {s : State} (hx : s.cfg.arch = .xochip) (mask : BitVec 4) :
    KeepsC8 s (s.setFb (FrameBuf.tabulate fun x y => s.c8.fb.cell x y &&& mask)) :=
  keepsC8_setFb
    (fun hb ha hr x y hxlt hylt => by
      have hxy := hb ha hr x y hxlt hylt
      simp only [State.setFb_c8, FrameBuf.cell_tabulate]
      rw [if_pos ⟨hxlt, hylt⟩, if_pos (by omega), hxy])
    (fun _ => chip8Grid_of_xochip hx)

theorem keepsC8_scroll {s : State} (hx : s.cfg.arch = .xochip) (dx dy : Int) : KeepsC8 s (s.scroll dx dy) :=
  keepsC8_setFb (fun _ => s.blocksEqual_scroll dx dy) (fun _ => chip8Grid_of_xochip hx)

/-- `LOW` and `HIGH` clear every plane, so the blocks are whole at either resolution (R410, R411). -/
theorem keepsC8_setResolution {s : State} (hx : s.cfg.arch = .xochip) (high : Bool) :
    KeepsC8 s ((s.setFb FrameBuf.blank).updXo fun x => { x with hires := high }) := fun hc =>
  { cfg := rfl
    inv := fun h =>
      { memory := h.memory
        stack := h.stack
        inFlight := h.inFlight
        blocks := fun _ _ _ _ _ _ => by simp
        grid := chip8Grid_of_xochip hx
        absent := absentAtReset_c8_of_same hc h.absent rfl rfl fun h8 => absurd (hx.symm.trans h8) (by decide)
        keyWait := h.keyWait }
    log := List.prefix_rfl }

/-- A pixel written inside the logical grid; on CHIP8 its value is one bit. -/
theorem keepsC8_setPx {s : State} {lx ly : Nat} {v : BitVec 4} (hx : lx < s.logicalWidth) (hy : ly < s.logicalHeight)
    (hv : s.cfg.arch = .chip8 → s.chip8Grid → v = 0 ∨ v = 1) : KeepsC8 s (s.setPx lx ly v) :=
  keepsC8_setFb (s.blocksEqual_setPx lx ly v) fun hg (h8 : s.cfg.arch = .chip8) x y => by
    have hk : s.pixelSide = 1 := by simp [State.pixelSide, h8]
    simp only [State.logicalWidth, State.logicalHeight, h8, reduceCtorEq, false_and, if_false] at hx hy
    simp only [State.setFb_c8, FrameBuf.cell_setBlock, hk]
    split
    · exact ⟨fun _ => by omega, hv h8 hg⟩
    · exact hg h8 x y

/-! ## Draw (R401) -/

/-- The planes a draw names: plane 0 alone on CHIP8. -/
theorem mem_drawPlanes_chip8 {s : State} (h8 : s.cfg.arch = .chip8) {p : Nat} (hp : p ∈ s.drawPlanes) : p = 0 := by
  simpa [State.drawPlanes, h8] using hp

theorem keepsC8_plotBit {p px py : Nat} {sc : State × Bool} (hp : sc.1.cfg.arch = .chip8 → p = 0)
    (hx : px < sc.1.logicalWidth) (hy : py < sc.1.logicalHeight) : KeepsC8 sc.1 (plotBit p px py sc).1 :=
  keepsC8_setPx hx hy fun h8 hg => by
    have hbit : sc.1.getPx px py = 0 ∨ sc.1.getPx px py = 1 := (hg h8 _ _).2
    rw [hp h8]
    rcases hbit with hz | ho
    · rw [hz]; decide
    · rw [ho]; decide

theorem logicalWidth_pos (s : State) : 0 < s.logicalWidth := by
  unfold State.logicalWidth; split <;> omega

theorem logicalHeight_pos (s : State) : 0 < s.logicalHeight := by
  unfold State.logicalHeight; split <;> omega

theorem keepsC8_plotByte {p x0 py : Nat} (byte : Byte) (bs : List Nat) {sc : State × Bool}
    (hp : sc.1.cfg.arch = .chip8 → p = 0) (hy : py < sc.1.logicalHeight) :
    KeepsC8 sc.1 (plotByte p x0 py byte bs sc).1 := by
  induction bs generalizing sc with
  | nil => exact KeepsC8.refl _
  | cons b rest ih =>
    rw [plotByte]
    split
    · exact (keepsC8_plotBit hp (Nat.mod_lt _ (logicalWidth_pos _)) hy).trans (ih hp hy)
    · exact ih hp hy

theorem keepsC8_drawBytes (x0 y0 a : Nat) (bs : List SpriteByte) {sc : State × Bool}
    (hp : sc.1.cfg.arch = .chip8 → ∀ b ∈ bs, b.1 = 0) : KeepsC8 sc.1 (drawBytes x0 y0 a bs sc).1 := by
  induction bs generalizing a sc with
  | nil => exact KeepsC8.refl _
  | cons b rest ih =>
    obtain ⟨p, r, c⟩ := b
    rw [drawBytes]
    have hread : KeepsC8 sc.1 (sc.1.afterRead a) := (keeps_afterRead sc.1 a).c8
    have hplot : KeepsC8 (sc.1.afterRead a) _ :=
      keepsC8_plotByte (p := p) (x0 := x0 + 8 * c) (py := (y0 + r) % sc.1.logicalHeight) (sc := (sc.1.afterRead a, sc.2))
        (sc.1.readVal a) (List.range 8) (fun h8 => hp (by simpa using h8) (p, r, c) (by simp))
        (by
          rw [State.logicalHeight_congr sc.1 (sc.1.afterRead a) (by simp) (by simp)]
          exact Nat.mod_lt _ (logicalHeight_pos _))
    refine (hread.trans hplot).trans (ih _ fun h8 q hq => hp ?_ q (by simp [hq]))
    have hsame := sameButFb_plotByte p (x0 + 8 * c) ((y0 + r) % sc.1.logicalHeight) (sc.1.readVal a) (List.range 8)
      (sc.1.afterRead a, sc.2)
    rw [hsame.1] at h8
    simpa using h8

theorem mem_spriteBytes_plane {planes : List Nat} {rows bpr : Nat} {b : SpriteByte} (h : b ∈ spriteBytes planes rows bpr) :
    b.1 ∈ planes := by
  simp only [spriteBytes, List.mem_flatMap, List.mem_map] at h
  obtain ⟨p, hp, r, -, c, -, rfl⟩ := h
  exact hp

theorem keepsC8_drawSprite (s : State) (x y n : BitVec 4) : KeepsC8 s (s.drawSprite x y n).1 :=
  keepsC8_drawBytes (sc := (s, false)) _ _ _ _ fun h8 _ hb => mem_drawPlanes_chip8 h8 (mem_spriteBytes_plane hb)

/-! ## The call stack and the key wait -/

/-- A pop from a stack that is not empty, else one record (R351, R43). -/
theorem keepsC8_execRet (s : State) : OnNext (KeepsC8 s) (execRet s) := by
  unfold execRet
  split
  · exact (keeps_raise s .stackUnderflow none).c8
  · next hsp =>
    refine keepsC8_updC8 (hsp := fun hd => ?_)
    have hpos : s.c8.sp.toNat ≠ 0 := fun h0 => hsp (BitVec.eq_of_toNat_eq h0)
    have : (s.c8.sp - 1).toNat = s.c8.sp.toNat - 1 := BitVec.toNat_sub_of_le (by bv_omega)
    show (s.c8.sp - 1).toNat ≤ _
    omega

/-- A push on a stack that is not full, else one record (R352, R43). -/
theorem keepsC8_execCall (nnn : BitVec 12) (s : State) : OnNext (KeepsC8 s) (execCall nnn s) := by
  unfold execCall
  split
  · exact (keeps_raise s .stackOverflow none).c8
  · next hsp =>
    refine keepsC8_updC8 (hsp := fun hd => ?_)
    have hle : (s.c8.sp + 1).toNat ≤ s.c8.sp.toNat + 1 := by
      rw [BitVec.toNat_add]
      exact Nat.mod_le _ _
    exact hle.trans (by omega)

/-- Arming clears the latch, and taking the key ends wait and latch together (R378, R46). -/
theorem keepsC8_execLdVxK (x : BitVec 4) (s : State) : OnNext (KeepsC8 s) (execLdVxK x s) := by
  unfold execLdVxK
  split
  · exact keepsC8_updC8 (hkw := fun _ _ h => by cases h)
  · split
    · exact (keepsC8_setReg s x _).trans (keepsC8_updC8 (hkw := fun _ _ h => by cases h))
    · exact keepsC8_setPc s _

theorem keepsC8_execCls (s : State) : OnNext (KeepsC8 s) (execCls s) := by
  unfold execCls
  split
  · next hx => exact keepsC8_clearPlanes hx _
  · exact keepsC8_clear s

/-! ## Every instruction of the CHIP-8 family -/

/-- A CHIP-8 instruction, on an architecture that has it, keeps the legal states and the log. -/
theorem keepsC8_exec {i : Instr} (hm : i.m65 = none) (s : State) (hx : i.table = .xochip → s.cfg.arch = .xochip) :
    OnNext (KeepsC8 s) (exec i s) := by
  cases i
  case cls => exact keepsC8_execCls s
  case ret => exact keepsC8_execRet s
  case jp => exact keepsC8_setPc s _
  case call nnn => exact keepsC8_execCall nnn s
  case seImm => exact keepsC8_skipIf s _
  case sneImm => exact keepsC8_skipIf s _
  case seReg => exact keepsC8_skipIf s _
  case sneReg => exact keepsC8_skipIf s _
  case skp => exact keepsC8_skipIf s _
  case sknp => exact keepsC8_skipIf s _
  case ldImm => exact keepsC8_setReg s _ _
  case addImm => exact keepsC8_setReg s _ _
  case ldReg => exact keepsC8_setReg s _ _
  case ldVxDt => exact keepsC8_setReg s _ _
  case orReg => exact keepsC8_setLogic s _ _
  case andReg => exact keepsC8_setLogic s _ _
  case xorReg => exact keepsC8_setLogic s _ _
  case addReg => exact keepsC8_setWithFlag s _ _ _
  case subReg => exact keepsC8_setWithFlag s _ _ _
  case shrReg => exact keepsC8_setWithFlag s _ _ _
  case subnReg => exact keepsC8_setWithFlag s _ _ _
  case shlReg => exact keepsC8_setWithFlag s _ _ _
  case ldI => exact keepsC8_setI s _
  case addI => exact keepsC8_setI s _
  case ldF => exact keepsC8_setI s _
  case ldHf => exact keepsC8_setI s _
  case jpV0 => exact keepsC8_setPc s _
  case rnd => exact (keepsC8_setReg s _ _).trans (keeps_randDraws _ _).c8
  case drw x y n => exact (keepsC8_drawSprite s x y n).trans (keepsC8_setReg _ _ _)
  case ldVxK x => exact keepsC8_execLdVxK x s
  case ldDtVx => exact keepsC8_updC8
  case ldStVx => exact keepsC8_updC8
  case ldB => exact ((keeps_memWrite s _ _).trans ((keeps_memWrite _ _ _).trans (keeps_memWrite _ _ _))).c8
  case ldMemVx x => exact (keepsC8_storeRegs s _ (regsTo x)).trans (keepsC8_advanceI _ x)
  case ldVxMem x => exact (keepsC8_loadRegs s _ (regsTo x)).trans (keepsC8_advanceI _ x)
  case scd => exact keepsC8_scroll (hx rfl) _ _
  case scu => exact keepsC8_scroll (hx rfl) _ _
  case scr => exact keepsC8_scroll (hx rfl) _ _
  case scl => exact keepsC8_scroll (hx rfl) _ _
  case low => exact keepsC8_setResolution (hx rfl) false
  case high => exact keepsC8_setResolution (hx rfl) true
  case saveRange x y => exact keepsC8_storeRegs s _ (regsBetween x y)
  case loadRange x y => exact keepsC8_loadRegs s _ (regsBetween x y)
  case ldILong => exact (keeps_afterRead2 s _).c8.trans keepsC8_updC8
  case plane => exact keepsC8_updXo (hx rfl)
  case audio => exact keepsC8_loadPattern (hx rfl) _ _ _
  case pitch => exact keepsC8_updXo (hx rfl)
  case ldRVx x => exact keepsC8_saveFlags (hx rfl) (regsTo x)
  case ldVxR x => exact keepsC8_restoreFlags s (regsTo x)
  all_goals cases hm

end Sys2Proof.Machine
end

section
/-! PROOF. The rows of the 6502 sequences, said once (40_m65_engine.md R160 to R191): a sequence of `N` rows has a row for
each `T` from 1 to `N` and none above, and a row is one bus operation and a change of the registers that keeps `IR`,
ends the instruction or goes to the next `T`. -/

namespace Sys2Proof.Machine

-- The theorems one after the other: elaborated at once they ask for a thread each.
set_option Elab.async false

/-! ## The 151 rows of the table -/

/-- The meaning of a 6502 row is the run of its sequence. -/
theorem exec_of_m65 {i : Instr} {mn : Mn} {mode : Mode} (h : i.m65 = some (mn, mode)) (s : State) :
    exec i s = runInstr65 mn mode s := by
  cases i <;> cases h <;> rfl

/-- The legal opcodes are 6502 rows. -/
theorem m65_of_decode65 {b : Byte} {i : Instr} (h : decode65 b = .ok i) : ∃ mn mode, i.m65 = some (mn, mode) := by
  have hall : (opcodeTable.all fun p => p.2.m65.isSome) = true := rfl
  unfold decode65 at h
  split at h
  · next j hj =>
    cases h
    obtain ⟨l₁, l₂, hl, -⟩ := List.lookup_eq_some_iff.mp hj
    have hi := List.all_eq_true.mp hall (b, i) (by simp [hl])
    obtain ⟨⟨mn, mode⟩, hm⟩ := Option.isSome_iff_exists.mp hi
    exact ⟨mn, mode, hm⟩
  · cases h

/-- The number, counted from 0, of the last row a class spends on the finished address. -/
def lastAccess : Cls → Nat
  | .m => 2
  | _ => 0

/-- How many rows the sequence of a memory operand has after Fetch; none for a mode that names no byte of memory. -/
def memoryRows (cls : Cls) : Mode → Option Nat
  | .imm => some 1
  | .zp => some (2 + lastAccess cls)
  | .zpx => some (3 + lastAccess cls)
  | .zpy => some (3 + lastAccess cls)
  | .abs => some (3 + lastAccess cls)
  | .abx => some (4 + lastAccess cls)
  | .aby => some (4 + lastAccess cls)
  | .izx => some (5 + lastAccess cls)
  | .izy => some (5 + lastAccess cls)
  | _ => none

/-- The class selects the sequence of a memory operand. -/
def usesMemory : Cls → Bool
  | .r => true
  | .w => true
  | .m => true
  | _ => false

/-- In the table a memory operand's mode names a byte of memory, and its sequence has the rows of R168. -/
theorem memoryRows_of_m65 {i : Instr} {mn : Mn} {mode : Mode} (h : i.m65 = some (mn, mode)) :
    usesMemory (mn.cls mode) = true → memoryRows (mn.cls mode) mode = some (maxCycles mn mode) := by
  cases i <;> cases h <;> decide

theorem maxCycles_le_six (mn : Mn) (mode : Mode) : maxCycles mn mode ≤ 6 := by
  cases mn <;> cases mode <;> decide

theorem one_le_maxCycles (mn : Mn) (mode : Mode) : 1 ≤ maxCycles mn mode := by
  cases mn <;> cases mode <;> decide

/-! ## One row -/

/-- The registers after a row of a sequence of `N` rows: `IR` stays, and the row ends the instruction or goes to the next
`T`, which still names a row. -/
def Cpu65.Advances (N : Nat) (c c' : Cpu65) : Prop :=
  c'.ir = c.ir ∧ (c'.t = 0 ∨ c'.t = c.t + 1 ∧ c.t.toNat < N)

theorem Cpu65.advances_next {N : Nat} {c c' : Cpu65} (hN : c.t.toNat < N) (hir : c'.ir = c.ir := by rfl)
    (ht : c'.t = c.t := by rfl) : Cpu65.Advances N c c'.next :=
  ⟨hir, .inr ⟨congrArg (· + 1) ht, hN⟩⟩

theorem Cpu65.advances_finish {N : Nat} {c c' : Cpu65} (hir : c'.ir = c.ir := by rfl) : Cpu65.Advances N c c'.finish :=
  ⟨hir, .inl rfl⟩

/-- A row: one bus operation, which leaves the registers to the row, and then their change. -/
structure RowStep (N : Nat) (s t : State) : Prop where
  row : ∃ u f, Keeps s u ∧ u.m65 = s.m65 ∧ t = u.upd65 f
  advances : Cpu65.Advances N s.m65 t.m65

theorem rowStep_readRow {N : Nat} {s : State} {a : Word} {f : Byte → Cpu65 → Cpu65}
    (h : ∀ b, Cpu65.Advances N s.m65 (f b s.m65)) : RowStep N s (s.readRow a f) where
  row := ⟨s.afterRead a.toNat, f (s.readVal a.toNat), keeps_afterRead s _, by simp, rfl⟩
  advances := by rw [State.readRow_m65]; exact h _

theorem rowStep_writeRow {N : Nat} {s : State} {a : Word} {v : Byte} {f : Cpu65 → Cpu65}
    (h : Cpu65.Advances N s.m65 (f s.m65)) : RowStep N s (s.writeRow a v f) where
  row := ⟨s.memWrite a.toNat v, f, keeps_memWrite s _ v, by simp, rfl⟩
  advances := by rw [State.writeRow_m65]; exact h

/-- What a sequence of `N` rows answers: a row for each `T` from 1 to `N`, and none for any other. -/
def SequenceRow (N : Nat) (s : State) : Option State → Prop
  | some t => RowStep N s t
  | none => s.m65.t.toNat = 0 ∨ N < s.m65.t.toNat

theorem sequenceRow_none {N : Nat} {s : State} (h : s.m65.t.toNat = 0 ∨ N < s.m65.t.toNat) : SequenceRow N s none := h

/-! ### The rows that several sequences share -/

theorem rowStep_readNext {N : Nat} {s : State} {a : Word} {f : Byte → Cpu65 → Cpu65} (hN : s.m65.t.toNat < N)
    (hir : ∀ b, (f b s.m65).ir = s.m65.ir := by exact fun _ => rfl)
    (ht : ∀ b, (f b s.m65).t = s.m65.t := by exact fun _ => rfl) :
    RowStep N s (s.readRow a fun b c => (f b c).next) :=
  rowStep_readRow fun b => Cpu65.advances_next hN (hir b) (ht b)

theorem rowStep_readFinish {N : Nat} {s : State} {a : Word} {f : Byte → Cpu65 → Cpu65}
    (hir : ∀ b, (f b s.m65).ir = s.m65.ir := by exact fun _ => rfl) :
    RowStep N s (s.readRow a fun b c => (f b c).finish) :=
  rowStep_readRow fun b => Cpu65.advances_finish (hir b)

theorem rowStep_writeNext {N : Nat} {s : State} {a : Word} {v : Byte} {f : Cpu65 → Cpu65} (hN : s.m65.t.toNat < N)
    (hir : (f s.m65).ir = s.m65.ir := by rfl) (ht : (f s.m65).t = s.m65.t := by rfl) :
    RowStep N s (s.writeRow a v fun c => (f c).next) :=
  rowStep_writeRow (Cpu65.advances_next hN hir ht)

theorem rowStep_writeFinish {N : Nat} {s : State} {a : Word} {v : Byte} {f : Cpu65 → Cpu65}
    (hir : (f s.m65).ir = s.m65.ir := by rfl) : RowStep N s (s.writeRow a v fun c => (f c).finish) :=
  rowStep_writeRow (Cpu65.advances_finish hir)

theorem readOp_ir (mn : Mn) (m : Byte) (c : Cpu65) : (readOp mn m c).ir = c.ir := by cases mn <;> rfl

theorem impOp_ir (mn : Mn) (c : Cpu65) : (impOp mn c).ir = c.ir := by cases mn <;> rfl

/-! ## The sequences -/

/-- The rows on the finished address, when `k` rows went before. -/
theorem accessRow_row (mn : Mn) {cls : Cls} (hc : usesMemory cls = true) {s : State} {j k : Nat}
    (hT : s.m65.t.toNat = k + j) : SequenceRow (k + lastAccess cls) s (accessRow mn cls j s) :=
  match cls, j with
  | .r, 0 => rowStep_readFinish (hir := fun b => readOp_ir mn b s.m65)
  | .w, 0 => rowStep_writeFinish
  | .m, 0 => rowStep_readNext (by simp only [lastAccess]; omega)
  | .m, 1 => rowStep_writeNext (by simp only [lastAccess]; omega)
  | .m, 2 => rowStep_writeFinish
  | .r, _ + 1 => .inr (by simp only [lastAccess]; omega)
  | .w, _ + 1 => .inr (by simp only [lastAccess]; omega)
  | .m, _ + 3 => .inr (by simp only [lastAccess]; omega)

theorem immCycle_row (mn : Mn) (s : State) : SequenceRow 1 s (immCycle mn s) := by
  unfold immCycle
  split
  · exact rowStep_readFinish (hir := fun b => readOp_ir mn b _)
  · exact sequenceRow_none (by grind)

theorem zpCycle_row (mn : Mn) {cls : Cls} (hc : usesMemory cls = true) (s : State) :
    SequenceRow (2 + lastAccess cls) s (zpCycle mn cls s) := by
  unfold zpCycle
  split
  · exact sequenceRow_none (by grind)
  · exact rowStep_readNext (by omega)
  · exact accessRow_row mn hc (by omega)

theorem zpIndexedCycle_row (mn : Mn) {cls : Cls} (hc : usesMemory cls = true) (idx : Cpu65 → Byte) (s : State) :
    SequenceRow (3 + lastAccess cls) s (zpIndexedCycle mn cls idx s) := by
  unfold zpIndexedCycle
  split
  · exact sequenceRow_none (by grind)
  · exact rowStep_readNext (by omega)
  · exact rowStep_readNext (by omega)
  · exact accessRow_row mn hc (by omega)

theorem absCycle_row (mn : Mn) {cls : Cls} (hc : usesMemory cls = true) (s : State) :
    SequenceRow (3 + lastAccess cls) s (absCycle mn cls s) := by
  unfold absCycle
  split
  · exact sequenceRow_none (by grind)
  · exact rowStep_readNext (by omega)
  · exact rowStep_readNext (by omega)
  · exact accessRow_row mn hc (by omega)

/-- The rows after the index add, when `k` rows went before: the correction row, which a read may skip, and the rows on
the finished address. -/
theorem indexedTail_row (mn : Mn) {cls : Cls} (hc : usesMemory cls = true) {s : State} {j k : Nat}
    (hT : s.m65.t.toNat = k + j) : SequenceRow (k + 1 + lastAccess cls) s (indexedTail mn cls j s) := by
  unfold indexedTail
  split
  · split
    · exact rowStep_readNext (by omega)
    · exact rowStep_readFinish (hir := fun b => readOp_ir mn b s.m65)
  · exact rowStep_readNext (by omega)
  · exact accessRow_row mn hc (by omega)

theorem absIndexedCycle_row (mn : Mn) {cls : Cls} (hc : usesMemory cls = true) (idx : Cpu65 → Byte) (s : State) :
    SequenceRow (4 + lastAccess cls) s (absIndexedCycle mn cls idx s) := by
  unfold absIndexedCycle
  split
  · exact sequenceRow_none (by grind)
  · exact rowStep_readNext (by omega)
  · exact rowStep_readNext (by omega)
  · exact indexedTail_row mn hc (k := 3) (by omega)

theorem izxCycle_row (mn : Mn) {cls : Cls} (hc : usesMemory cls = true) (s : State) :
    SequenceRow (5 + lastAccess cls) s (izxCycle mn cls s) := by
  unfold izxCycle
  split
  · exact sequenceRow_none (by grind)
  · exact rowStep_readNext (by omega)
  · exact rowStep_readNext (by omega)
  · exact rowStep_readNext (by omega)
  · exact rowStep_readNext (by omega)
  · exact accessRow_row mn hc (by omega)

theorem izyCycle_row (mn : Mn) {cls : Cls} (hc : usesMemory cls = true) (s : State) :
    SequenceRow (5 + lastAccess cls) s (izyCycle mn cls s) := by
  unfold izyCycle
  split
  · exact sequenceRow_none (by grind)
  · exact rowStep_readNext (by omega)
  · exact rowStep_readNext (by omega)
  · exact rowStep_readNext (by omega)
  · exact indexedTail_row mn hc (k := 4) (by omega)

/-- The sequence of a memory operand, in every mode that names a byte of memory. -/
theorem memoryCycle_row (mn : Mn) {cls : Cls} (hc : usesMemory cls = true) {mode : Mode} {N : Nat}
    (hN : memoryRows cls mode = some N) (s : State) : SequenceRow N s (memoryCycle mn cls mode s) := by
  cases mode <;> cases hN
  case imm => exact immCycle_row mn s
  case zp => exact zpCycle_row mn hc s
  case zpx => exact zpIndexedCycle_row mn hc _ s
  case zpy => exact zpIndexedCycle_row mn hc _ s
  case abs => exact absCycle_row mn hc s
  case abx => exact absIndexedCycle_row mn hc _ s
  case aby => exact absIndexedCycle_row mn hc _ s
  case izx => exact izxCycle_row mn hc s
  case izy => exact izyCycle_row mn hc s

theorem impCycle_row (mn : Mn) (s : State) : SequenceRow 1 s (impCycle mn s) := by
  unfold impCycle
  split
  · exact rowStep_readFinish (hir := fun _ => impOp_ir mn s.m65)
  · exact sequenceRow_none (by grind)

theorem accCycle_row (mn : Mn) (s : State) : SequenceRow 1 s (accCycle mn s) := by
  unfold accCycle
  split
  · exact rowStep_readFinish
  · exact sequenceRow_none (by grind)

/-- A branch ends in row 1 when it is not taken and in row 2 when it stays on its page (R179). -/
theorem relCycle_row (mn : Mn) (s : State) : SequenceRow 3 s (relCycle mn s) := by
  unfold relCycle
  split
  · refine rowStep_readRow fun b => ?_
    dsimp only
    split
    · exact Cpu65.advances_next (by omega)
    · exact Cpu65.advances_finish
  · refine rowStep_readRow fun b => ?_
    dsimp only
    split
    · exact Cpu65.advances_next (by omega)
    · exact Cpu65.advances_finish
  · exact rowStep_readFinish
  · exact sequenceRow_none (by grind)

theorem jmpAbsCycle_row (s : State) : SequenceRow 2 s (jmpAbsCycle s) := by
  unfold jmpAbsCycle
  split
  · exact rowStep_readNext (by omega)
  · exact rowStep_readFinish
  · exact sequenceRow_none (by grind)

theorem jmpIndCycle_row (s : State) : SequenceRow 4 s (jmpIndCycle s) := by
  unfold jmpIndCycle
  split
  · exact rowStep_readNext (by omega)
  · exact rowStep_readNext (by omega)
  · exact rowStep_readNext (by omega)
  · exact rowStep_readFinish
  · exact sequenceRow_none (by grind)

theorem jsrCycle_row (s : State) : SequenceRow 5 s (jsrCycle s) := by
  unfold jsrCycle
  split
  · exact rowStep_readNext (by omega)
  · exact rowStep_readNext (by omega)
  · exact rowStep_writeNext (by omega)
  · exact rowStep_writeNext (by omega)
  · exact rowStep_readFinish
  · exact sequenceRow_none (by grind)

theorem rtsCycle_row (s : State) : SequenceRow 5 s (rtsCycle s) := by
  unfold rtsCycle
  split
  · exact rowStep_readNext (by omega)
  · exact rowStep_readNext (by omega)
  · exact rowStep_readNext (by omega)
  · exact rowStep_readNext (by omega)
  · exact rowStep_readFinish
  · exact sequenceRow_none (by grind)

theorem trapEntryCycle_row (s : State) : SequenceRow 6 s (trapEntryCycle s) := by
  unfold trapEntryCycle
  split
  · exact rowStep_readNext (by omega)
  · exact rowStep_writeNext (by omega)
  · exact rowStep_writeNext (by omega)
  · exact rowStep_writeNext (by omega)
  · exact rowStep_readNext (by omega)
  · exact rowStep_readFinish
  · exact sequenceRow_none (by grind)

theorem trapReturnCycle_row (s : State) : SequenceRow 5 s (trapReturnCycle s) := by
  unfold trapReturnCycle
  split
  · exact rowStep_readNext (by omega)
  · exact rowStep_readNext (by omega)
  · exact rowStep_readNext (by omega)
  · exact rowStep_readNext (by omega)
  · exact rowStep_readFinish
  · exact sequenceRow_none (by grind)

theorem pushCycle_row (v : Byte) (s : State) : SequenceRow 2 s (pushCycle v s) := by
  unfold pushCycle
  split
  · exact rowStep_readNext (by omega)
  · exact rowStep_writeFinish
  · exact sequenceRow_none (by grind)

theorem pullCycle_row {f : Byte → Cpu65 → Cpu65} (s : State) (hir : ∀ b, (f b s.m65).ir = s.m65.ir) :
    SequenceRow 3 s (pullCycle f s) := by
  unfold pullCycle
  split
  · exact rowStep_readNext (by omega)
  · exact rowStep_readNext (by omega)
  · exact rowStep_readFinish (hir := hir)
  · exact sequenceRow_none (by grind)

theorem specialCycle_row {mn : Mn} {mode : Mode} (hc : mn.cls mode = .special) (s : State) :
    SequenceRow (maxCycles mn mode) s (specialCycle mn mode s) := by
  cases mn
  case brk => exact trapEntryCycle_row s
  case rti => exact trapReturnCycle_row s
  case rts => exact rtsCycle_row s
  case jsr => exact jsrCycle_row s
  case jmp =>
    by_cases hm : mode = .ind
    · simpa [specialCycle, maxCycles, Mn.cls, hm] using jmpIndCycle_row s
    · simpa [specialCycle, maxCycles, Mn.cls, hm] using jmpAbsCycle_row s
  case pha => exact pushCycle_row _ s
  case php => exact pushCycle_row _ s
  case pla => exact pullCycle_row s fun _ => rfl
  case plp => exact pullCycle_row s fun _ => rfl
  all_goals cases mode <;> cases hc

/-- The sequence of a 6502 instruction: a row for each `T` from 1 to its most micro-cycles, and no other. -/
theorem microCycle_row {i : Instr} {mn : Mn} {mode : Mode} (hi : i.m65 = some (mn, mode)) (s : State) :
    SequenceRow (maxCycles mn mode) s (microCycle mn mode s) := by
  have hmem := memoryRows_of_m65 hi
  unfold microCycle
  cases hc : mn.cls mode <;> rw [hc] at hmem
  case r => exact memoryCycle_row mn rfl (hmem rfl) s
  case w => exact memoryCycle_row mn rfl (hmem rfl) s
  case m => exact memoryCycle_row mn rfl (hmem rfl) s
  case acc => simpa [maxCycles, hc] using accCycle_row mn s
  case imp => simpa [maxCycles, hc] using impCycle_row mn s
  case br => simpa [maxCycles, hc] using relCycle_row mn s
  case special => exact specialCycle_row hc s

end Sys2Proof.Machine
end

section
/-! PROOF. Every step but `PowerOn` keeps the parameters, the legal states and the fault log; the statements on the
invariant and on `FAULTLOG` follow. -/

namespace Sys2Proof.Machine

-- The theorems one after the other: elaborated at once they ask for a thread each.
set_option Elab.async false

/-! ## The 6502 engine -/

theorem inFlightLegal_iff (s : State) :
    s.inFlightLegal = true ↔ s.m65.t = 0 ∨ ∃ i mn mode, decode65 s.m65.ir = .ok i ∧ i.m65 = some (mn, mode) ∧
      s.m65.t.toNat ≤ maxCycles mn mode := by
  unfold State.inFlightLegal
  cases hd : decode65 s.m65.ir with
  | error e => simp
  | ok i =>
    cases hm : i.m65 with
    | none => simp [hm]
    | some p => obtain ⟨mn, mode⟩ := p; simp [hm]

/-- The opcode in `IR` is that of `(MN, MODE)`. -/
def State.latched (s : State) (mn : Mn) (mode : Mode) : Prop :=
  ∃ i, decode65 s.m65.ir = .ok i ∧ i.m65 = some (mn, mode)

theorem RowStep.latched {N : Nat} {s t : State} {mn : Mn} {mode : Mode} (h : RowStep N s t) (hl : s.latched mn mode) :
    t.latched mn mode := by
  rw [State.latched, h.advances.1]
  exact hl

/-- `T` after a row still names a row. -/
theorem RowStep.t_le {N : Nat} {s t : State} (h : RowStep N s t) : t.m65.t = 0 ∨ t.m65.t.toNat ≤ N := by
  obtain ⟨-, h0 | ⟨ht, hN⟩⟩ := h.advances
  · exact .inl h0
  · refine .inr ?_
    rw [ht, BitVec.toNat_add]
    exact (Nat.mod_le _ _).trans hN

/-- On the 6502 family a row of the latched instruction keeps the legal states and the log. -/
theorem RowStep.keeps {s t : State} {mn : Mn} {mode : Mode} (h : RowStep (maxCycles mn mode) s t)
    (h65 : s.cfg.arch.is65 = true) (hl : s.latched mn mode) : Keeps s t := by
  have hT : t.inFlightLegal = true := by
    obtain ⟨i, hd, hm⟩ := h.latched hl
    exact (inFlightLegal_iff t).mpr (h.t_le.imp_right fun ht => ⟨i, mn, mode, hd, hm, ht⟩)
  obtain ⟨u, f, hu, -, rfl⟩ := h.row
  exact hu.trans ⟨rfl, fun hi => hi.of_m65 (by rw [hu.cfg]; exact h65) rfl hT, List.prefix_rfl⟩

/-- The Fetch (R161): the opcode latched and `T` = 1, or one record and `T` still 0. -/
theorem keeps_fetch65 {s : State} (h65 : s.cfg.arch.is65 = true) (h0 : s.m65.t = 0) : Keeps s s.fetch65 := by
  have hread : Keeps s (s.afterRead s.m65.pc.toNat) := keeps_afterRead s _
  have hregs (f : Cpu65 → Cpu65) (hT : ((s.afterRead s.m65.pc.toNat).upd65 f).inFlightLegal = true) :
      Keeps s ((s.afterRead s.m65.pc.toNat).upd65 f) :=
    hread.trans ⟨rfl, fun hi => hi.of_m65 (by rw [hread.cfg]; exact h65) rfl hT, List.prefix_rfl⟩
  unfold State.fetch65
  cases hd : decode65 (s.readVal s.m65.pc.toNat) with
  | ok i =>
    obtain ⟨mn, mode, hm⟩ := m65_of_decode65 hd
    exact hregs (fun c => { c with ir := s.readVal s.m65.pc.toNat, pc := c.pc + 1, t := 1 })
      ((inFlightLegal_iff _).mpr (.inr ⟨i, mn, mode, hd, hm, one_le_maxCycles mn mode⟩))
  | error e =>
    refine (hregs _ ((inFlightLegal_iff _).mpr (.inl ?_))).trans (keeps_raise _ _ _)
    simpa using h0

/-- The run of an instruction from any row of it. -/
theorem keeps_runCycles {i : Instr} {mn : Mn} {mode : Mode} (hi : i.m65 = some (mn, mode)) (fuel : Nat) {s : State}
    (h65 : s.cfg.arch.is65 = true) (hl : s.latched mn mode) : OnNext (Keeps s) (runCycles mn mode fuel s) := by
  induction fuel generalizing s with
  | zero => trivial
  | succ fuel ih =>
    have hrow := microCycle_row hi s
    unfold runCycles
    cases hc : microCycle mn mode s with
    | none => trivial
    | some t =>
      rw [hc] at hrow
      have hk := RowStep.keeps hrow h65 hl
      dsimp only
      split
      · exact hk
      · exact (ih (by rw [hk.cfg]; exact h65) (RowStep.latched hrow hl)).mono fun u hu => hk.trans hu

/-- An instruction whose opcode is latched. -/
theorem keeps_exec65 {i : Instr} {s : State} (h65 : s.cfg.arch.is65 = true) (hd : decode65 s.m65.ir = .ok i) :
    OnNext (Keeps s) (exec i s) := by
  obtain ⟨mn, mode, hm⟩ := m65_of_decode65 hd
  rw [exec_of_m65 hm]
  exact keeps_runCycles hm 6 h65 ⟨i, hd, hm⟩

theorem keeps_runToReady65 {s : State} (h65 : s.cfg.arch.is65 = true) : OnNext (Keeps s) (runToReady65 s) := by
  unfold runToReady65
  split
  · next h0 =>
    have hf := keeps_fetch65 h65 h0
    split
    · next i hd =>
      have hir : s.fetch65.m65.ir = s.readVal s.m65.pc.toNat := by simp [State.fetch65, hd, State.readRow_m65]
      exact (keeps_exec65 (by rw [hf.cfg]; exact h65) (by rw [hir]; exact hd)).mono fun u hu => hf.trans hu
    · exact hf
  · split
    · next i hd => exact keeps_exec65 h65 hd
    · trivial

theorem keeps_tick65 {s : State} (h65 : s.cfg.arch.is65 = true) : OnNext (Keeps s) (tick65 s) := by
  unfold tick65
  split
  · next h0 => exact keeps_fetch65 h65 h0
  · unfold State.midCycle65
    cases hd : decode65 s.m65.ir with
    | error e => trivial
    | ok i =>
      obtain ⟨mn, mode, hm⟩ := m65_of_decode65 hd
      have hrow := microCycle_row hm s
      simp only [hm]
      cases hc : microCycle mn mode s with
      | none => trivial
      | some t =>
        rw [hc] at hrow
        exact RowStep.keeps hrow h65 ⟨i, hd, hm⟩

/-! ## The CHIP-8 engine -/

/-- An optional row of the XOCHIP table is read on XOCHIP alone (R137). -/
def XochipRowOn (a : Arch) (o : Option Instr) : Prop := ∀ i ∈ o, i.table = .xochip → a = .xochip

theorem xochipRowOn_none (a : Arch) : XochipRowOn a none := fun _ h => by cases h

theorem xochipRowOn_some {a : Arch} {i : Instr} (h : i.table = .xochip → a = .xochip) : XochipRowOn a (some i) :=
  fun _ hj => by cases hj; exact h

/-- A row of the table both architectures have. -/
theorem xochipRowOn_chip8 {a : Arch} {i : Instr} (h : i.table = .chip8) : XochipRowOn a (some i) :=
  xochipRowOn_some fun hx => absurd (h.symm.trans hx) (by decide)

theorem xochipRowOn_ite {a : Arch} {p : Prop} [Decidable p] {o o' : Option Instr} (h : XochipRowOn a o)
    (h' : XochipRowOn a o') : XochipRowOn a (if p then o else o') := by
  split <;> assumption

/-- What stands behind the test for XOCHIP. -/
theorem xochipRowOn_guard {a : Arch} {o : Option Instr} : XochipRowOn a (if a = .xochip then o else none) := by
  split
  · next h => exact fun _ _ _ => h
  · exact xochipRowOn_none a

theorem decodeTop0_xochip (a : Arch) (w : Word) : XochipRowOn a (decodeTop0 a w) :=
  xochipRowOn_ite (xochipRowOn_chip8 rfl) (xochipRowOn_ite (xochipRowOn_chip8 rfl) xochipRowOn_guard)

theorem decodeTop5_xochip (a : Arch) (w : Word) : XochipRowOn a (decodeTop5 a w) :=
  xochipRowOn_ite (xochipRowOn_chip8 rfl) xochipRowOn_guard

theorem decodeTop8_xochip (a : Arch) (w : Word) : XochipRowOn a (decodeTop8 w) := by
  unfold decodeTop8
  repeat' refine xochipRowOn_ite (xochipRowOn_chip8 rfl) ?_
  exact xochipRowOn_none a

theorem decodeTopE_xochip (a : Arch) (w : Word) : XochipRowOn a (decodeTopE w) :=
  xochipRowOn_ite (xochipRowOn_chip8 rfl) (xochipRowOn_ite (xochipRowOn_chip8 rfl) (xochipRowOn_none a))

theorem decodeTopFBase_xochip (a : Arch) (w : Word) : XochipRowOn a (decodeTopFBase w) := by
  unfold decodeTopFBase
  repeat' refine xochipRowOn_ite (xochipRowOn_chip8 rfl) ?_
  exact xochipRowOn_none a

theorem decodeTopF_xochip (a : Arch) (w : Word) : XochipRowOn a (decodeTopF a w) := by
  unfold decodeTopF
  cases h : decodeTopFBase w with
  | some i => exact fun j hj => decodeTopFBase_xochip a w j (h.trans hj)
  | none => exact xochipRowOn_guard

theorem decodeC8Row_xochip (a : Arch) (w : Word) : XochipRowOn a (decodeC8Row a w) := by
  unfold decodeC8Row
  split
  case h_1 => exact decodeTop0_xochip a w
  case h_6 => exact decodeTop5_xochip a w
  case h_9 => exact decodeTop8_xochip a w
  case h_10 => exact xochipRowOn_ite (xochipRowOn_chip8 rfl) (xochipRowOn_none a)
  case h_15 => exact decodeTopE_xochip a w
  case h_16 => exact decodeTopF_xochip a w
  all_goals exact xochipRowOn_chip8 rfl

/-- What a word decodes to on an architecture, that architecture has. -/
theorem xochip_of_decodeC8 {a : Arch} {w : Word} {i : Instr} (h : decodeC8 a w = .ok i) (hx : i.table = .xochip) :
    a = .xochip := by
  unfold decodeC8 at h
  cases hr : decodeC8Row a w with
  | some j => rw [hr] at h; cases h; exact decodeC8Row_xochip a w i hr hx
  | none => rw [hr] at h; cases h

theorem keepsC8_fetchC8 (s : State) : KeepsC8 s s.fetchC8 := by
  have hread : KeepsC8 s ((s.afterRead2 s.c8.pc.toNat).updC8 fun c =>
      { c with op := s.readVal2 s.c8.pc.toNat, pc := c.pc + 2 }) :=
    (keeps_afterRead2 s _).c8.trans keepsC8_updC8
  unfold State.fetchC8
  dsimp only
  split
  · next hx => exact hread.trans (keepsC8_updXo (by simpa using hx))
  · exact hread

theorem keepsC8_macroStep (s : State) : OnNext (KeepsC8 s) (macroStep s) := by
  cases hd : decodeC8 s.cfg.arch (s.readVal2 s.c8.pc.toNat) with
  | error e =>
    rw [macroStep_error hd]
    exact (keepsC8_fetchC8 s).trans (keeps_raise _ _ _).c8
  | ok i =>
    rw [macroStep_ok hd]
    have hx : i.table = .xochip → s.fetchC8.cfg.arch = .xochip := fun h => by
      rw [(s.fetchC8_same).1]; exact xochip_of_decodeC8 hd h
    exact (keepsC8_exec (decodeC8_m65 hd) s.fetchC8 hx).mono fun _ h => (keepsC8_fetchC8 s).trans h

theorem keepsC8_halt {s : State} (hb : s.atBreakpoint = true) : KeepsC8 s s.halt := by
  have hx : s.cfg.arch = .xochip := by
    simp only [State.atBreakpoint, Bool.and_eq_true, decide_eq_true_eq] at hb
    exact hb.1.1
  exact KeepsC8.trans (keepsC8_updXo (f := fun x => { x with halted := true }) hx) (keepsC8_updXo hx)

theorem keepsC8_tickC8 (steps : Nat) (s : State) : OnNext (KeepsC8 s) (tickC8 steps s) := by
  induction steps generalizing s with
  | zero => exact KeepsC8.refl s
  | succ k ih =>
    by_cases hh : s.cfg.arch = .xochip ∧ s.xo.halted = true
    · rw [tickC8_halted _ hh.1 hh.2]
      exact KeepsC8.refl s
    cases hb : s.atBreakpoint with
    | true =>
      rw [tickC8_atBreakpoint k hh hb]
      exact keepsC8_halt hb
    | false =>
      obtain ⟨t, hm⟩ := macroStep_next s
      have hk : KeepsC8 s t := (keepsC8_macroStep s).of_eq hm
      rw [tickC8_run k hh hb hm]
      split
      · exact hk
      · exact (ih t).mono fun _ h => hk.trans h

/-! ## The host operations -/

theorem keeps_hostReset (s : State) : Keeps s s.hostReset := by
  unfold State.hostReset
  split
  · next h65 => exact ⟨rfl, fun h => h.of_m65 h65 rfl rfl, List.prefix_rfl⟩
  · next h65 =>
    have hc : s.isC8 := Bool.eq_false_iff.mpr h65
    refine ⟨rfl, fun h => ?_, List.prefix_rfl⟩
    exact
      { memory := h.memory
        stack := Nat.zero_le _
        inFlight := h.inFlight
        blocks := fun _ _ _ _ _ _ => by simp [CpuC8.afterReset]
        grid := fun _ _ _ => by simp [CpuC8.afterReset]
        absent := absentAtReset_c8_of_same hc h.absent rfl rfl fun h8 => by
          rw [((absentAtReset_ofC8 hc).mp h.absent).2 h8]; rfl
        keyWait := fun _ hv => by cases hv }

theorem keeps_tick (steps : Nat) (s : State) : OnNext (Keeps s) (s.tick steps) := by
  unfold State.tick
  split
  · next h65 => exact keeps_tick65 h65
  · next h65 => exact (keepsC8_tickC8 steps s).mono fun _ h => h (Bool.eq_false_iff.mpr h65)

theorem keeps_loadProgram (s : State) (bytes : List Byte) : Keeps s (s.loadProgram bytes) := by
  have hw := keeps_writeBytes s s.cfg.programOrigin bytes
  unfold State.loadProgram
  dsimp only
  split
  · exact hw
  · next h65 => exact hw.c8.trans (keepsC8_clear _) (Bool.eq_false_iff.mpr h65)

theorem keepsC8_setKeyState (s : State) (k : BitVec 4) (pressed : Bool) : KeepsC8 s (s.setKeyState k pressed) :=
  keepsC8_updC8 (hkw := fun he hi => State.setKeyState_keyWait k pressed he hi)

theorem keeps_setBreakpoint (s : State) (address : Nat) : Keeps s (s.setBreakpoint address) := by
  unfold State.setBreakpoint
  split
  · next hx => exact keepsC8_updXo hx rfl (isC8_of_xochip hx)
  · exact Keeps.refl s

theorem keeps_clearBreakpoint (s : State) : Keeps s s.clearBreakpoint := by
  unfold State.clearBreakpoint
  split
  · next hx => exact keepsC8_updXo hx rfl (isC8_of_xochip hx)
  · exact Keeps.refl s

theorem keeps_runHostOp {o : HostOp} (ho : o ≠ .powerOn) (s : State) : OnNext (Keeps s) (runHostOp o s) := by
  cases o with
  | powerOn => exact absurd rfl ho
  | reset => exact keeps_hostReset s
  | tick steps => exact keeps_tick steps s
  | loggedStep steps => exact keeps_tick steps s
  | decayTimers =>
    unfold runHostOp
    dsimp only
    split
    · trivial
    · next h65 => exact keepsC8_updC8 (s := s) rfl id (fun _ h => h) (Bool.eq_false_iff.mpr h65)
  | loadProgram bytes => exact keeps_loadProgram s bytes
  | setKeyState index pressed =>
    unfold runHostOp
    dsimp only
    split
    · trivial
    · next h65 =>
      split
      · exact keepsC8_setKeyState s _ pressed (Bool.eq_false_iff.mpr h65)
      · trivial
  | setBreakpoint address => exact keeps_setBreakpoint s address
  | clearBreakpoint => exact keeps_clearBreakpoint s

/-! ## The step -/

/-- The state after power-on is legal (R470, R471). -/
theorem inv_powerOn (c : Config) : Inv (State.powerOn c) where
  memory := Mem.wf_nil c
  stack := Nat.zero_le _
  inFlight := rfl
  blocks := fun _ _ _ _ _ _ => by simp [State.powerOn, CpuC8.afterReset]
  grid := fun _ _ _ => by simp [State.powerOn, CpuC8.afterReset]
  absent := by
    unfold State.absentAtReset
    cases ha : (State.powerOn c).cfg.arch <;> simp [State.powerOn]
  keyWait := fun _ hv => by cases hv

theorem inv_hostPowerOn (s : State) : Inv s.hostPowerOn :=
  (inv_powerOn s.cfg).of_same rfl (Mem.wf_nil _) rfl rfl rfl

theorem keeps_step {s : State} (ho : s.hostQueue.head? ≠ some .powerOn) : OnNext (Keeps s) (step s) := by
  cases hq : s.hostQueue with
  | cons o rest =>
    rw [step_hostOp hq]
    have hne : o ≠ .powerOn := fun h => ho (by rw [hq, h]; rfl)
    exact (keeps_runHostOp hne _).mono fun _ h => (keeps_hostQueue s rest).trans h
  | nil =>
    cases h65 : s.cfg.arch.is65 with
    | true =>
      rw [step_instr65 hq h65]
      exact keeps_runToReady65 h65
    | false =>
      rw [step_instrC8 hq h65]
      exact (keepsC8_tickC8 1 s).mono fun _ h => h h65

/-- Settles O56: `PowerOn` answers a legal state from any state, and every other step keeps the legal states. -/
theorem invariantIsKept : Obligations.InvariantIsKept := by
  intro s t hs ht
  by_cases ho : s.hostQueue.head? = some .powerOn
  · obtain ⟨rest, hq⟩ := List.head?_eq_some_iff.mp ho
    rw [step_hostOp hq] at ht
    cases ht
    exact inv_hostPowerOn _
  · exact ((keeps_step ho).of_eq ht).inv hs

/-- Settles O59: every step but `PowerOn` keeps the records already in `FAULTLOG`. -/
theorem faultLogOnlyGrows : Obligations.FaultLogOnlyGrows := by
  intro s t ho ht
  exact ((keeps_step ho).of_eq ht).log

end Sys2Proof.Machine
end

section
/-! PROOF. The key latch and the reads of the host. -/

namespace Sys2Proof.Machine

-- The theorems one after the other: elaborated at once they ask for a thread each.
set_option Elab.async false

/-! ## The key latch (R46, R76) -/

theorem keyDown_ofNat {s : State} {k : Nat} (hk : k < 16) :
    s.keyDown (BitVec.ofNat 4 k) = s.c8.key.toList.getD k false := by
  simp [State.keyDown, Nat.mod_eq_of_lt hk, hk]

/-- The edges that are latched: every release, or with D37 the first one of a key wait (log 11). -/
theorem latchesEdge_iff (s : State) (k : BitVec 4) (pressed : Bool) :
    s.latchesEdge k pressed = true ↔ s.keyDown k = true ∧ pressed = false ∧
      (s.cfg.keyEdge = .firstInWait → s.c8.kwWait = true ∧ s.c8.kwValid = false) := by
  cases he : s.cfg.keyEdge with
  | everyRelease => simp [State.latchesEdge_everyRelease k pressed he]
  | firstInWait => simp [State.latchesEdge_firstInWait k pressed he, and_assoc]

/-- `KEY` after one key is written. -/
theorem key_set_getD (key : Vector Bool 16) {k j : Nat} (hk : k < 16) (hj : j < 16) (pressed : Bool) :
    (key.set k pressed hk).toList.getD j false = if j = k then pressed else key.toList.getD j false := by
  have hget (v : Vector Bool 16) : v.toList.getD j false = v[j] := by simp [hj]
  rw [hget, hget, Vector.getElem_set]
  simp only [eq_comm]

/-- Settles O51: the key is written alone, and the latch changes at exactly the latched edges. -/
theorem releaseEdgesAreLatched : Obligations.ReleaseEdgesAreLatched := by
  intro s k pressed h65
  refine ⟨fun hk => ?_, fun hk => ?_⟩
  · simp [runHostOp, h65, Nat.not_lt.mpr hk]
  · have hkey : (BitVec.ofNat 4 k).toNat = k := Nat.mod_eq_of_lt hk
    have hedge := latchesEdge_iff s (BitVec.ofNat 4 k) pressed
    rw [keyDown_ofNat hk] at hedge
    refine ⟨s.setKeyState (BitVec.ofNat 4 k) pressed, by simp [runHostOp, h65, hk], rfl, fun j hj => ?_, fun hr => ?_,
      fun hr => ?_⟩
    · simpa [State.setKeyState, hkey] using key_set_getD s.c8.key hk hj pressed
    · simp [State.setKeyState, hedge.mpr hr]
    · simp [State.setKeyState, Bool.eq_false_iff.mpr fun h => hr (hedge.mp h)]

/-! ## The reads of the host (R70, R73, R74) -/

/-- Settles O60: each read unfolds on the architectures of its row, and answers none elsewhere. -/
theorem readsAnswerOnTheirArchitectures : Obligations.ReadsAnswerOnTheirArchitectures := by
  intro s
  refine ⟨fun h => ?_, fun h => ?_, fun h => ?_, fun h => ?_⟩
  · simp [State.getFramebuffer, State.getSoundActive, h]
  · simp [State.getPitch, h]
  · simp [State.getPitch, h]
  · have hsound : decide (0 < s.c8.st.toNat) = decide (s.c8.st ≠ 0) := by
      rw [decide_eq_decide, Nat.pos_iff_ne_zero, ne_eq, ne_eq, ← BitVec.toNat_inj]
      rfl
    refine ⟨by simp [State.getSoundActive, h, hsound], _, if_neg (by simp [h]), by simp [State.fbSize],
      by simp [State.fbSize], fun x y (hx : x < s.fbSize.1) (hy : y < s.fbSize.2) => ?_⟩
    simp [hx, hy]

end Sys2Proof.Machine
end

section
/-! PROOF. No 6502 instruction observes the old scratch fields (10_state.md R31). Two runs of one sequence go in lockstep:
at each `T` they agree on the visible registers and on the scratch fields that a row of this instruction has written and a
later row reads, its live fields; at the first row none is live. -/

namespace Sys2Proof.Machine

-- The theorems one after the other: elaborated at once they ask for a thread each.
set_option Elab.async false

/-- The scratch fields of R31. -/
inductive Scratch where
  | adl
  | adh
  | ptr
  | data
  | pgx

/-- The registers agree but for the scratch fields that are not live. -/
structure Cpu65.Agree (live : List Scratch) (c c' : Cpu65) : Prop where
  visible : c'.visible = c.visible
  adl : .adl ∈ live → c'.adl = c.adl
  adh : .adh ∈ live → c'.adh = c.adh
  ptr : .ptr ∈ live → c'.ptr = c.ptr
  data : .data ∈ live → c'.data = c.data
  pgx : .pgx ∈ live → c'.pgx = c.pgx

theorem Cpu65.agree_iff (live : List Scratch) (c c' : Cpu65) :
    Cpu65.Agree live c c' ↔
      (c'.a = c.a ∧ c'.x = c.x ∧ c'.y = c.y ∧ c'.s = c.s ∧ c'.pc = c.pc ∧ c'.p = c.p ∧ c'.ir = c.ir ∧ c'.t = c.t) ∧
        (.adl ∈ live → c'.adl = c.adl) ∧ (.adh ∈ live → c'.adh = c.adh) ∧ (.ptr ∈ live → c'.ptr = c.ptr) ∧
        (.data ∈ live → c'.data = c.data) ∧ (.pgx ∈ live → c'.pgx = c.pgx) := by
  constructor
  · rintro ⟨hv, h1, h2, h3, h4, h5⟩
    simp only [Cpu65.visible, Cpu65.mk.injEq, and_true] at hv
    exact ⟨hv, h1, h2, h3, h4, h5⟩
  · rintro ⟨hv, h1, h2, h3, h4, h5⟩
    exact ⟨by simpa only [Cpu65.visible, Cpu65.mk.injEq, and_true] using hv, h1, h2, h3, h4, h5⟩

theorem Cpu65.Agree.mono {live live' : List Scratch} {c c' : Cpu65} (h : Cpu65.Agree live c c') (hl : live' ⊆ live) :
    Cpu65.Agree live' c c' :=
  ⟨h.visible, fun m => h.adl (hl m), fun m => h.adh (hl m), fun m => h.ptr (hl m), fun m => h.data (hl m),
    fun m => h.pgx (hl m)⟩

theorem Cpu65.Agree.pc {live : List Scratch} {c c' : Cpu65} (h : Cpu65.Agree live c c') : c'.pc = c.pc :=
  (congrArg Cpu65.pc h.visible :)

theorem Cpu65.Agree.p {live : List Scratch} {c c' : Cpu65} (h : Cpu65.Agree live c c') : c'.p = c.p :=
  (congrArg Cpu65.p h.visible :)

theorem Cpu65.Agree.stackAddr {live : List Scratch} {c c' : Cpu65} (h : Cpu65.Agree live c c') :
    c'.stackAddr = c.stackAddr :=
  (congrArg Cpu65.stackAddr h.visible :)

theorem Cpu65.Agree.finish {live : List Scratch} {c c' : Cpu65} (h : Cpu65.Agree live c c') :
    Cpu65.Agree live c.finish c'.finish := by
  simp_all [Cpu65.agree_iff, Cpu65.finish]

theorem Cpu65.Agree.next {live : List Scratch} {c c' : Cpu65} (h : Cpu65.Agree live c c') :
    Cpu65.Agree live c.next c'.next := by
  simp_all [Cpu65.agree_iff, Cpu65.next]

theorem Cpu65.Agree.readOp {live : List Scratch} {c c' : Cpu65} (h : Cpu65.Agree live c c') (mn : Mn) (m : Byte) :
    Cpu65.Agree live (readOp mn m c) (readOp mn m c') := by
  cases mn <;> simp_all [Cpu65.agree_iff, Machine.readOp]

theorem Cpu65.Agree.impOp {live : List Scratch} {c c' : Cpu65} (h : Cpu65.Agree live c c') (mn : Mn) :
    Cpu65.Agree live (impOp mn c) (impOp mn c') := by
  cases mn <;> simp_all [Cpu65.agree_iff, Machine.impOp]

theorem Cpu65.Agree.writeVal {live : List Scratch} {c c' : Cpu65} (h : Cpu65.Agree live c c') (mn : Mn) :
    writeVal mn c' = writeVal mn c := by
  cases mn <;> simp_all [Cpu65.agree_iff, Machine.writeVal]

/-! ## Two states in lockstep -/

/-- The two states differ in scratch fields that are not live, and in nothing else. -/
structure AgreeOn (live : List Scratch) (s s' : State) : Prop where
  rest : s' = { s with m65 := s'.m65 }
  regs : Cpu65.Agree live s.m65 s'.m65

theorem AgreeOn.t {live : List Scratch} {s s' : State} (h : AgreeOn live s s') : s'.m65.t = s.m65.t :=
  (congrArg Cpu65.t h.regs.visible :)

/-- A read row of the 6502 family, as one update. -/
theorem readRow_eq_of65 {s : State} (h65 : s.cfg.arch.is65 = true) (a : Word) (f : Byte → Cpu65 → Cpu65) :
    s.readRow a f = { s with m65 := f (s.peekW a) s.m65
                             busTrace := s.busTrace ++ [.read a.toNat (s.peekW a) false] } := by
  rw [State.readRow, State.afterRead_of_lt s _ (word_lt_memSize h65 a), readVal65 h65]
  rfl

/-- A write row of the 6502 family, as one update. -/
theorem writeRow_eq_of65 {s : State} (h65 : s.cfg.arch.is65 = true) (a : Word) (v : Byte) (f : Cpu65 → Cpu65) :
    s.writeRow a v f = { s with m65 := f s.m65
                                mem := Mem.write s.cfg s.mem a.toNat v
                                busTrace := s.busTrace ++ [.write a.toNat v false] } := by
  rw [State.writeRow, State.memWrite_of_lt s _ v (word_lt_memSize h65 a)]
  rfl

theorem agreeOn_readRow {live live' : List Scratch} {s s' : State} (h65 : s.cfg.arch.is65 = true)
    (h : AgreeOn live s s') {a a' : Word} (ha : a' = a) {f : Byte → Cpu65 → Cpu65}
    (hf : ∀ b, Cpu65.Agree live' (f b s.m65) (f b s'.m65)) : AgreeOn live' (s.readRow a f) (s'.readRow a' f) := by
  have h65' : s'.cfg.arch.is65 = true := by rw [h.rest]; exact h65
  have hp : s'.peekW a = s.peekW a := by rw [h.rest]; rfl
  subst ha
  rw [readRow_eq_of65 h65, readRow_eq_of65 h65', hp]
  exact ⟨by rw [h.rest], hf _⟩

theorem agreeOn_writeRow {live live' : List Scratch} {s s' : State} (h65 : s.cfg.arch.is65 = true)
    (h : AgreeOn live s s') {a a' : Word} (ha : a' = a) {v v' : Byte} (hv : v' = v) {f : Cpu65 → Cpu65}
    (hf : Cpu65.Agree live' (f s.m65) (f s'.m65)) : AgreeOn live' (s.writeRow a v f) (s'.writeRow a' v' f) := by
  have h65' : s'.cfg.arch.is65 = true := by rw [h.rest]; exact h65
  subst ha hv
  rw [writeRow_eq_of65 h65, writeRow_eq_of65 h65']
  exact ⟨by rw [h.rest], hf⟩

/-- Both states have a row and agree after it, or neither has one. -/
def RowsAgree (live : List Scratch) : Option State → Option State → Prop
  | some t, some t' => AgreeOn live t t'
  | none, none => True
  | _, _ => False

/-- A sequence whose rows read no scratch field but the live ones of their `T`, and leave those of the next `T` written. -/
def Lockstep (live : Nat → List Scratch) (F : State → Option State) : Prop :=
  ∀ (T : Nat) (s s' : State), s.cfg.arch.is65 = true → s.m65.t.toNat = T → s'.m65.t.toNat = T →
    AgreeOn (live T) s s' → RowsAgree (live (T + 1)) (F s) (F s')

/-! ## The live fields of each sequence -/

/-- While the finished address is used: `AD`, and between the rows of a read-modify-write `DATA` too. -/
def liveAccess (cls : Cls) : Nat → List Scratch
  | 0 => [.adl, .adh]
  | 1 => if cls = .m then [.adl, .adh, .data] else []
  | 2 => if cls = .m then [.adl, .adh, .data] else []
  | _ => []

/-- After the index add: `AD` and the page-cross carry. -/
def liveTail (cls : Cls) : Nat → List Scratch
  | 0 => [.adl, .adh, .pgx]
  | k + 1 => liveAccess cls k

def liveZp (cls : Cls) : Nat → List Scratch
  | 0 => []
  | 1 => []
  | k + 2 => liveAccess cls k

def liveZpIndexed (cls : Cls) : Nat → List Scratch
  | 0 => []
  | 1 => []
  | 2 => [.adl, .adh]
  | k + 3 => liveAccess cls k

def liveAbs (cls : Cls) : Nat → List Scratch
  | 0 => []
  | 1 => []
  | 2 => [.adl]
  | k + 3 => liveAccess cls k

def liveAbsIndexed (cls : Cls) : Nat → List Scratch
  | 0 => []
  | 1 => []
  | 2 => [.adl]
  | k + 3 => liveTail cls k

def liveIzx (cls : Cls) : Nat → List Scratch
  | 0 => []
  | 1 => []
  | 2 => [.ptr]
  | 3 => [.ptr]
  | 4 => [.ptr, .adl]
  | k + 5 => liveAccess cls k

def liveIzy (cls : Cls) : Nat → List Scratch
  | 0 => []
  | 1 => []
  | 2 => [.ptr]
  | 3 => [.ptr, .adl]
  | k + 4 => liveTail cls k

theorem accessRow_agree (mn : Mn) {cls : Cls} {s s' : State} (h65 : s.cfg.arch.is65 = true) (j : Nat)
    (h : AgreeOn (liveAccess cls j) s s') :
    RowsAgree (liveAccess cls (j + 1)) (accessRow mn cls j s) (accessRow mn cls j s') := by
  have hr := h.regs
  match cls, j with
  | .r, 0 =>
    refine agreeOn_readRow h65 h ?_ fun b => ((hr.readOp mn b).finish).mono (by simp [liveAccess])
    simp_all [Cpu65.agree_iff, liveAccess, Cpu65.ad]
  | .w, 0 =>
    refine agreeOn_writeRow h65 h ?_ (hr.writeVal mn) (hr.finish.mono (by simp [liveAccess]))
    simp_all [Cpu65.agree_iff, liveAccess, Cpu65.ad]
  | .m, 0 =>
    refine agreeOn_readRow h65 h ?_ fun b => ?_ <;> simp_all [Cpu65.agree_iff, liveAccess, Cpu65.ad, Cpu65.next]
  | .m, 1 =>
    refine agreeOn_writeRow h65 h ?_ ?_ ?_ <;> simp_all [Cpu65.agree_iff, liveAccess, Cpu65.ad, Cpu65.next]
  | .m, 2 =>
    refine agreeOn_writeRow h65 h ?_ ?_ ?_ <;> simp_all [Cpu65.agree_iff, liveAccess, Cpu65.ad, Cpu65.finish]
  | .r, _ + 1 => trivial
  | .w, _ + 1 => trivial
  | .m, _ + 3 => trivial
  | .acc, _ => trivial
  | .imp, _ => trivial
  | .br, _ => trivial
  | .special, _ => trivial

/-- The correction row, which ends the use of the page-cross carry. -/
theorem fixHighRow_agree {cls : Cls} {s s' : State} (h65 : s.cfg.arch.is65 = true) (h : AgreeOn (liveTail cls 0) s s') :
    AgreeOn (liveTail cls 1) (fixHighRow s) (fixHighRow s') := by
  have hr := h.regs
  refine agreeOn_readRow h65 h ?_ fun b => ?_ <;>
    simp_all [Cpu65.agree_iff, liveTail, liveAccess, Cpu65.ad, Cpu65.next]

theorem indexedTail_agree (mn : Mn) {cls : Cls} {s s' : State} (h65 : s.cfg.arch.is65 = true) (j : Nat)
    (h : AgreeOn (liveTail cls j) s s') :
    RowsAgree (liveTail cls (j + 1)) (indexedTail mn cls j s) (indexedTail mn cls j s') := by
  have hr := h.regs
  match j with
  | 0 =>
    have hfix := fixHighRow_agree h65 h
    have hpgx : s'.m65.pgx = s.m65.pgx := hr.pgx (by simp [liveTail])
    cases cls with
    | r =>
      simp only [indexedTail, hpgx]
      split
      · exact hfix
      · refine agreeOn_readRow h65 h ?_ fun b => ((hr.readOp mn b).finish).mono (by simp [liveTail, liveAccess])
        simp_all [Cpu65.agree_iff, liveTail, Cpu65.ad]
    | _ => exact hfix
  | k + 1 =>
    have hk := accessRow_agree mn h65 k h
    cases cls <;> exact hk

theorem immCycle_lockstep (mn : Mn) : Lockstep (fun _ => []) (immCycle mn) := by
  intro T s s' h65 hT hT' h
  have hr := (Cpu65.agree_iff _ _ _).mp h.regs
  unfold immCycle
  rw [hT, hT']
  split
  · refine agreeOn_readRow h65 h ?_ fun b => Cpu65.Agree.finish (Cpu65.Agree.readOp ?_ mn b) <;>
      simp_all [Cpu65.agree_iff]
  · trivial

theorem zpCycle_lockstep (mn : Mn) (cls : Cls) : Lockstep (liveZp cls) (zpCycle mn cls) := by
  intro T s s' h65 hT hT' h
  have hr := h.regs
  unfold zpCycle
  rw [hT, hT']
  match T with
  | 0 => trivial
  | 1 => refine agreeOn_readRow h65 h ?_ fun b => ?_ <;> simp_all [Cpu65.agree_iff, liveZp, liveAccess, Cpu65.next]
  | k + 2 => exact accessRow_agree mn h65 k h

/-- An index register is the same in both runs. -/
def IndexVisible (idx : Cpu65 → Byte) : Prop := ∀ live c c', Cpu65.Agree live c c' → idx c' = idx c

theorem indexVisible_x : IndexVisible fun c => c.x := fun _ _ _ h => (congrArg Cpu65.x h.visible :)

theorem indexVisible_y : IndexVisible fun c => c.y := fun _ _ _ h => (congrArg Cpu65.y h.visible :)

theorem zpIndexedCycle_lockstep (mn : Mn) (cls : Cls) {idx : Cpu65 → Byte} (hidx : IndexVisible idx) :
    Lockstep (liveZpIndexed cls) (zpIndexedCycle mn cls idx) := by
  intro T s s' h65 hT hT' h
  have hr := h.regs
  have hi := hidx _ _ _ hr
  unfold zpIndexedCycle
  rw [hT, hT']
  match T with
  | 0 => trivial
  | 1 => refine agreeOn_readRow h65 h ?_ fun b => ?_ <;> simp_all [Cpu65.agree_iff, liveZpIndexed, Cpu65.next]
  | 2 =>
    refine agreeOn_readRow h65 h ?_ fun b => ?_ <;>
      simp_all [Cpu65.agree_iff, liveZpIndexed, liveAccess, Cpu65.ad, Cpu65.next]
  | k + 3 => exact accessRow_agree mn h65 k h

theorem absCycle_lockstep (mn : Mn) (cls : Cls) : Lockstep (liveAbs cls) (absCycle mn cls) := by
  intro T s s' h65 hT hT' h
  have hr := h.regs
  unfold absCycle
  rw [hT, hT']
  match T with
  | 0 => trivial
  | 1 => refine agreeOn_readRow h65 h ?_ fun b => ?_ <;> simp_all [Cpu65.agree_iff, liveAbs, Cpu65.next]
  | 2 => refine agreeOn_readRow h65 h ?_ fun b => ?_ <;> simp_all [Cpu65.agree_iff, liveAbs, liveAccess, Cpu65.next]
  | k + 3 => exact accessRow_agree mn h65 k h

theorem absIndexedCycle_lockstep (mn : Mn) (cls : Cls) {idx : Cpu65 → Byte} (hidx : IndexVisible idx) :
    Lockstep (liveAbsIndexed cls) (absIndexedCycle mn cls idx) := by
  intro T s s' h65 hT hT' h
  have hr := h.regs
  have hi := hidx _ _ _ hr
  unfold absIndexedCycle
  rw [hT, hT']
  match T with
  | 0 => trivial
  | 1 => refine agreeOn_readRow h65 h ?_ fun b => ?_ <;> simp_all [Cpu65.agree_iff, liveAbsIndexed, Cpu65.next]
  | 2 =>
    refine agreeOn_readRow h65 h ?_ fun b => ?_ <;> simp_all [Cpu65.agree_iff, liveAbsIndexed, liveTail, Cpu65.next]
  | k + 3 => exact indexedTail_agree mn h65 k h

theorem izxCycle_lockstep (mn : Mn) (cls : Cls) : Lockstep (liveIzx cls) (izxCycle mn cls) := by
  intro T s s' h65 hT hT' h
  have hr := h.regs
  unfold izxCycle
  rw [hT, hT']
  match T with
  | 0 => trivial
  | 1 => refine agreeOn_readRow h65 h ?_ fun b => ?_ <;> simp_all [Cpu65.agree_iff, liveIzx, Cpu65.next]
  | 2 => refine agreeOn_readRow h65 h ?_ fun b => ?_ <;> simp_all [Cpu65.agree_iff, liveIzx, Cpu65.next]
  | 3 => refine agreeOn_readRow h65 h ?_ fun b => ?_ <;> simp_all [Cpu65.agree_iff, liveIzx, Cpu65.next]
  | 4 => refine agreeOn_readRow h65 h ?_ fun b => ?_ <;> simp_all [Cpu65.agree_iff, liveIzx, liveAccess, Cpu65.next]
  | k + 5 => exact accessRow_agree mn h65 k h

theorem izyCycle_lockstep (mn : Mn) (cls : Cls) : Lockstep (liveIzy cls) (izyCycle mn cls) := by
  intro T s s' h65 hT hT' h
  have hr := h.regs
  unfold izyCycle
  rw [hT, hT']
  match T with
  | 0 => trivial
  | 1 => refine agreeOn_readRow h65 h ?_ fun b => ?_ <;> simp_all [Cpu65.agree_iff, liveIzy, Cpu65.next]
  | 2 => refine agreeOn_readRow h65 h ?_ fun b => ?_ <;> simp_all [Cpu65.agree_iff, liveIzy, Cpu65.next]
  | 3 => refine agreeOn_readRow h65 h ?_ fun b => ?_ <;> simp_all [Cpu65.agree_iff, liveIzy, liveTail, Cpu65.next]
  | k + 4 => exact indexedTail_agree mn h65 k h

theorem impCycle_lockstep (mn : Mn) : Lockstep (fun _ => []) (impCycle mn) := by
  intro T s s' h65 hT hT' h
  have hr := h.regs
  unfold impCycle
  rw [hT, hT']
  split
  · exact agreeOn_readRow h65 h hr.pc fun _ => (hr.impOp mn).finish
  · trivial

theorem accCycle_lockstep (mn : Mn) : Lockstep (fun _ => []) (accCycle mn) := by
  intro T s s' h65 hT hT' h
  have hr := h.regs
  unfold accCycle
  rw [hT, hT']
  split
  · refine agreeOn_readRow h65 h hr.pc fun b => Cpu65.Agree.finish ?_
    simp_all [Cpu65.agree_iff]
  · trivial

/-- A taken branch keeps its offset for row 2, and one that crosses a page its target's high byte for row 3. -/
def liveRel : Nat → List Scratch
  | 2 => [.data]
  | 3 => [.adh]
  | _ => []

theorem relCycle_lockstep (mn : Mn) : Lockstep liveRel (relCycle mn) := by
  intro T s s' h65 hT hT' h
  have hr := h.regs
  have hp : s'.m65.p = s.m65.p := hr.p
  unfold relCycle
  rw [hT, hT']
  match T with
  | 0 => trivial
  | 1 =>
    refine agreeOn_readRow h65 h hr.pc fun b => ?_
    simp only [hp]
    split
    · refine Cpu65.Agree.next ?_
      simp_all [Cpu65.agree_iff, liveRel]
    · refine Cpu65.Agree.finish ?_
      simp_all [Cpu65.agree_iff, liveRel]
  | 2 =>
    have hpc : s'.m65.pc = s.m65.pc := hr.pc
    have hdata : s'.m65.data = s.m65.data := hr.data (by simp [liveRel])
    refine agreeOn_readRow h65 h hpc fun b => ?_
    simp only [hpc, hdata, decide_eq_true_eq]
    split
    · refine Cpu65.Agree.next ?_
      simp_all [Cpu65.agree_iff, liveRel]
    · refine Cpu65.Agree.finish ?_
      simp_all [Cpu65.agree_iff, liveRel]
  | 3 =>
    refine agreeOn_readRow h65 h hr.pc fun b => Cpu65.Agree.finish ?_
    simp_all [Cpu65.agree_iff, liveRel]
  | _ + 4 => trivial

/-! ### The SPECIAL sequences (43_m65_control.md) -/

def liveJmpAbs : Nat → List Scratch
  | 2 => [.adl]
  | _ => []

def liveJmpInd : Nat → List Scratch
  | 2 => [.adl]
  | 3 => [.adl, .adh]
  | 4 => [.adl, .adh, .data]
  | _ => []

/-- `JSR` keeps the low operand byte over its two pushes (R292). -/
def liveJsr : Nat → List Scratch
  | 2 => [.adl]
  | 3 => [.adl]
  | 4 => [.adl]
  | 5 => [.adl]
  | _ => []

def liveRts : Nat → List Scratch
  | 4 => [.adl]
  | _ => []

def liveRti : Nat → List Scratch
  | 5 => [.adl]
  | _ => []

def liveBrk : Nat → List Scratch
  | 6 => [.adl]
  | _ => []

theorem jmpAbsCycle_lockstep : Lockstep liveJmpAbs jmpAbsCycle := by
  intro T s s' h65 hT hT' h
  have hr := h.regs
  unfold jmpAbsCycle
  rw [hT, hT']
  split
  · refine agreeOn_readRow h65 h hr.pc fun b => ?_
    simp_all [Cpu65.agree_iff, liveJmpAbs, Cpu65.next]
  · refine agreeOn_readRow h65 h hr.pc fun b => ?_
    simp_all [Cpu65.agree_iff, liveJmpAbs, Cpu65.finish]
  · trivial

theorem jmpIndCycle_lockstep : Lockstep liveJmpInd jmpIndCycle := by
  intro T s s' h65 hT hT' h
  have hr := h.regs
  unfold jmpIndCycle
  rw [hT, hT']
  split
  · refine agreeOn_readRow h65 h hr.pc fun b => ?_
    simp_all [Cpu65.agree_iff, liveJmpInd, Cpu65.next]
  · refine agreeOn_readRow h65 h hr.pc fun b => ?_
    simp_all [Cpu65.agree_iff, liveJmpInd, Cpu65.next]
  · refine agreeOn_readRow h65 h ?_ fun b => ?_ <;> simp_all [Cpu65.agree_iff, liveJmpInd, Cpu65.ad, Cpu65.next]
  · refine agreeOn_readRow h65 h ?_ fun b => ?_ <;> simp_all [Cpu65.agree_iff, liveJmpInd, Cpu65.finish]
  · trivial

theorem jsrCycle_lockstep : Lockstep liveJsr jsrCycle := by
  intro T s s' h65 hT hT' h
  have hr := h.regs
  have hpc : s'.m65.pc = s.m65.pc := hr.pc
  unfold jsrCycle
  rw [hT, hT']
  split
  · refine agreeOn_readRow h65 h hpc fun b => ?_
    simp_all [Cpu65.agree_iff, liveJsr, Cpu65.next]
  · exact agreeOn_readRow h65 h hr.stackAddr fun _ => hr.next
  · refine agreeOn_writeRow h65 h hr.stackAddr (by rw [hpc]) ?_
    simp_all [Cpu65.agree_iff, liveJsr, Cpu65.next]
  · refine agreeOn_writeRow h65 h hr.stackAddr (by rw [hpc]) ?_
    simp_all [Cpu65.agree_iff, liveJsr, Cpu65.next]
  · refine agreeOn_readRow h65 h hpc fun b => ?_
    simp_all [Cpu65.agree_iff, liveJsr, Cpu65.finish]
  · trivial

theorem dummyPcRow_agree {live : List Scratch} {s s' : State} (h65 : s.cfg.arch.is65 = true) (h : AgreeOn live s s') :
    AgreeOn live s.dummyPcRow s'.dummyPcRow :=
  agreeOn_readRow h65 h h.regs.pc fun _ => h.regs.next

theorem dummyPullRow_agree {live : List Scratch} {s s' : State} (h65 : s.cfg.arch.is65 = true)
    (h : AgreeOn live s s') : AgreeOn live s.dummyPullRow s'.dummyPullRow := by
  have hr := h.regs
  refine agreeOn_readRow h65 h hr.stackAddr fun _ => Cpu65.Agree.next ?_
  simp_all [Cpu65.agree_iff]

theorem rtsCycle_lockstep : Lockstep liveRts rtsCycle := by
  intro T s s' h65 hT hT' h
  have hr := h.regs
  unfold rtsCycle
  rw [hT, hT']
  split
  · exact dummyPcRow_agree h65 h
  · exact dummyPullRow_agree h65 h
  · refine agreeOn_readRow h65 h hr.stackAddr fun b => ?_
    simp_all [Cpu65.agree_iff, liveRts, Cpu65.next]
  · refine agreeOn_readRow h65 h hr.stackAddr fun b => ?_
    simp_all [Cpu65.agree_iff, liveRts, Cpu65.next]
  · refine agreeOn_readRow h65 h hr.pc fun b => ?_
    simp_all [Cpu65.agree_iff, liveRts, Cpu65.finish]
  · trivial

theorem trapReturnCycle_lockstep : Lockstep liveRti trapReturnCycle := by
  intro T s s' h65 hT hT' h
  have hr := h.regs
  unfold trapReturnCycle
  rw [hT, hT']
  split
  · exact dummyPcRow_agree h65 h
  · exact dummyPullRow_agree h65 h
  · refine agreeOn_readRow h65 h hr.stackAddr fun b => ?_
    simp_all [Cpu65.agree_iff, liveRti, Cpu65.next]
  · refine agreeOn_readRow h65 h hr.stackAddr fun b => ?_
    simp_all [Cpu65.agree_iff, liveRti, Cpu65.next]
  · refine agreeOn_readRow h65 h hr.stackAddr fun b => ?_
    simp_all [Cpu65.agree_iff, liveRti, Cpu65.finish]
  · trivial

theorem pushRow_agree {live : List Scratch} {s s' : State} (h65 : s.cfg.arch.is65 = true) (h : AgreeOn live s s')
    {v v' : Byte} (hv : v' = v) : AgreeOn live (s.pushRow v) (s'.pushRow v') := by
  have hr := h.regs
  refine agreeOn_writeRow h65 h hr.stackAddr hv (Cpu65.Agree.next ?_)
  simp_all [Cpu65.agree_iff]

theorem trapEntryCycle_lockstep : Lockstep liveBrk trapEntryCycle := by
  intro T s s' h65 hT hT' h
  have hr := h.regs
  unfold trapEntryCycle
  rw [hT, hT']
  split
  · refine agreeOn_readRow h65 h hr.pc fun b => ?_
    simp_all [Cpu65.agree_iff, liveBrk, Cpu65.next]
  · exact pushRow_agree h65 h (congrArg hiByte hr.pc)
  · exact pushRow_agree h65 h (congrArg loByte hr.pc)
  · exact pushRow_agree h65 h (by rw [hr.p])
  · refine agreeOn_readRow h65 h rfl fun b => ?_
    simp_all [Cpu65.agree_iff, liveBrk, Cpu65.next]
  · refine agreeOn_readRow h65 h rfl fun b => ?_
    simp_all [Cpu65.agree_iff, liveBrk, Cpu65.finish]
  · trivial

/-- The byte pushed depends on the visible registers alone. -/
theorem pushCycle_lockstep {v : Cpu65 → Byte} (hv : ∀ c c', Cpu65.Agree [] c c' → v c' = v c) :
    Lockstep (fun _ => []) (fun s => pushCycle (v s.m65) s) := by
  intro T s s' h65 hT hT' h
  have hr := h.regs
  unfold pushCycle
  dsimp only
  rw [hT, hT']
  split
  · exact dummyPcRow_agree h65 h
  · refine agreeOn_writeRow h65 h hr.stackAddr (hv _ _ hr) (Cpu65.Agree.finish ?_)
    simp_all [Cpu65.agree_iff]
  · trivial

theorem pullCycle_lockstep {f : Byte → Cpu65 → Cpu65}
    (hf : ∀ b c c', Cpu65.Agree [] c c' → Cpu65.Agree [] (f b c) (f b c')) :
    Lockstep (fun _ => []) (pullCycle f) := by
  intro T s s' h65 hT hT' h
  have hr := h.regs
  unfold pullCycle
  rw [hT, hT']
  split
  · exact dummyPcRow_agree h65 h
  · exact dummyPullRow_agree h65 h
  · exact agreeOn_readRow h65 h hr.stackAddr fun b => (hf b _ _ hr).finish
  · trivial

/-! ## The whole instruction -/

/-- No scratch field is live when the first row of a sequence begins. -/
def StartsFresh (F : State → Option State) : Prop := ∃ live, live 1 = [] ∧ Lockstep live F

theorem startsFresh_none : StartsFresh fun _ => none := ⟨fun _ => [], rfl, fun _ _ _ _ _ _ _ => trivial⟩

theorem memoryCycle_startsFresh (mn : Mn) (cls : Cls) (mode : Mode) : StartsFresh (memoryCycle mn cls mode) := by
  cases mode
  case imm => exact ⟨_, rfl, immCycle_lockstep mn⟩
  case zp => exact ⟨_, rfl, zpCycle_lockstep mn cls⟩
  case zpx => exact ⟨_, rfl, zpIndexedCycle_lockstep mn cls indexVisible_x⟩
  case zpy => exact ⟨_, rfl, zpIndexedCycle_lockstep mn cls indexVisible_y⟩
  case abs => exact ⟨_, rfl, absCycle_lockstep mn cls⟩
  case abx => exact ⟨_, rfl, absIndexedCycle_lockstep mn cls indexVisible_x⟩
  case aby => exact ⟨_, rfl, absIndexedCycle_lockstep mn cls indexVisible_y⟩
  case izx => exact ⟨_, rfl, izxCycle_lockstep mn cls⟩
  case izy => exact ⟨_, rfl, izyCycle_lockstep mn cls⟩
  all_goals exact startsFresh_none

theorem specialCycle_startsFresh (mn : Mn) (mode : Mode) : StartsFresh (specialCycle mn mode) := by
  cases mn
  case brk => exact ⟨_, rfl, trapEntryCycle_lockstep⟩
  case rti => exact ⟨_, rfl, trapReturnCycle_lockstep⟩
  case rts => exact ⟨_, rfl, rtsCycle_lockstep⟩
  case jsr => exact ⟨_, rfl, jsrCycle_lockstep⟩
  case jmp =>
    by_cases hm : mode = .ind
    · exact ⟨liveJmpInd, rfl, by simpa [specialCycle, Lockstep, hm] using jmpIndCycle_lockstep⟩
    · exact ⟨liveJmpAbs, rfl, by simpa [specialCycle, Lockstep, hm] using jmpAbsCycle_lockstep⟩
  case pha => exact ⟨_, rfl, pushCycle_lockstep fun _ _ h => (congrArg Cpu65.a h.visible :)⟩
  case php => exact ⟨_, rfl, pushCycle_lockstep (v := fun c => c.p.pack true) fun _ _ h => by rw [h.p]⟩
  case pla => exact ⟨_, rfl, pullCycle_lockstep fun b _ _ h => by simp_all [Cpu65.agree_iff]⟩
  case plp => exact ⟨_, rfl, pullCycle_lockstep fun b _ _ h => by simp_all [Cpu65.agree_iff]⟩
  all_goals exact startsFresh_none

theorem microCycle_startsFresh (mn : Mn) (mode : Mode) : StartsFresh (microCycle mn mode) := by
  unfold microCycle
  cases mn.cls mode
  case imp => exact ⟨_, rfl, impCycle_lockstep mn⟩
  case acc => exact ⟨_, rfl, accCycle_lockstep mn⟩
  case br => exact ⟨_, rfl, relCycle_lockstep mn⟩
  case special => exact specialCycle_startsFresh mn mode
  case r => exact memoryCycle_startsFresh mn .r mode
  case w => exact memoryCycle_startsFresh mn .w mode
  case m => exact memoryCycle_startsFresh mn .m mode

/-- From a row of its sequence, and with fuel for the rows left, an instruction completes; and two states that agree on the
live fields complete together. -/
theorem runCycles_agree {i : Instr} {mn : Mn} {mode : Mode} (hi : i.m65 = some (mn, mode)) {live : Nat → List Scratch}
    (hl : Lockstep live (microCycle mn mode)) (fuel : Nat) {s s' : State} (h65 : s.cfg.arch.is65 = true)
    (h : AgreeOn (live s.m65.t.toNat) s s') (h1 : 1 ≤ s.m65.t.toNat) (hN : s.m65.t.toNat ≤ maxCycles mn mode)
    (hf : maxCycles mn mode < s.m65.t.toNat + fuel) :
    ∃ t t', runCycles mn mode fuel s = .next t ∧ runCycles mn mode fuel s' = .next t' ∧ AgreeOn [] t t' := by
  induction fuel generalizing s s' with
  | zero => omega
  | succ fuel ih =>
    have hrow := microCycle_row hi s
    have hboth := hl _ s s' h65 rfl (by rw [h.t]) h
    cases hc : microCycle mn mode s with
    | none =>
      rw [hc] at hrow
      have : s.m65.t.toNat = 0 ∨ maxCycles mn mode < s.m65.t.toNat := hrow
      omega
    | some t =>
      cases hc' : microCycle mn mode s' with
      | none => rw [hc, hc'] at hboth; exact hboth.elim
      | some t' =>
        rw [hc, hc'] at hboth
        rw [hc] at hrow
        have hag : AgreeOn (live (s.m65.t.toNat + 1)) t t' := hboth
        have hstep : RowStep (maxCycles mn mode) s t := hrow
        by_cases h0 : t.m65.t = 0
        · exact ⟨t, t', runCycles_finish fuel hc h0, runCycles_finish fuel hc' (hag.t.trans h0),
            hag.rest, hag.regs.mono (by simp)⟩
        · rw [runCycles_next fuel hc h0, runCycles_next fuel hc' (by rw [hag.t]; exact h0)]
          obtain ⟨ht, hlt⟩ := hstep.advances.2.resolve_left h0
          have hT : t.m65.t.toNat = s.m65.t.toNat + 1 := by
            have := maxCycles_le_six mn mode
            rw [ht, BitVec.toNat_add]
            exact Nat.mod_eq_of_lt (by simp; omega)
          have ht65 : t.cfg.arch.is65 = true := by
            obtain ⟨u, f, hu, -, rfl⟩ := hstep.row
            rw [State.upd65_cfg, hu.cfg]; exact h65
          exact ih ht65 (by rw [hT]; exact hag) (by omega) (by omega) (by omega)

/-- Settles O25: nothing is live at the first row, so the run from `s'` follows the run from `s`. -/
theorem scratchIsNotObserved : Obligations.ScratchIsNotObserved := by
  intro i s s' ⟨h65, ht⟩ hi hv hs
  obtain ⟨⟨mn, mode⟩, hm⟩ := Option.isSome_iff_exists.mp hi
  obtain ⟨live, hlive, hl⟩ := microCycle_startsFresh mn mode
  have hT : s.m65.t.toNat = 1 := by rw [ht]; rfl
  have hstart : AgreeOn (live s.m65.t.toNat) s s' :=
    ⟨hs, by rw [hT, hlive]; exact ⟨hv, by simp, by simp, by simp, by simp, by simp⟩⟩
  have h1 := one_le_maxCycles mn mode
  have h6 := maxCycles_le_six mn mode
  rw [exec_of_m65 hm, exec_of_m65 hm]
  obtain ⟨t, t', hrun, hrun', hag⟩ := runCycles_agree hm hl 6 h65 hstart (by omega) (by omega) (by omega)
  exact ⟨t, t', hrun, hrun', hag.regs.visible, hag.rest⟩

end Sys2Proof.Machine
end

section
/-! PROOF. The bus contract (20_memory.md R81, R82, R84) and the load of a program through the bus (R95): what one access
and a run of writes to ascending addresses read back as, report and leave alone. -/

namespace Sys2Proof.Machine

-- The theorems one after the other: elaborated at once they ask for a thread each.
set_option Elab.async false

/-! ## One access (R81, R82, R84) -/

/-- A byte as the bus answers it after a bus write. -/
theorem State.readVal_memWrite (s : State) (a b : Nat) (v : Byte) :
    (s.memWrite a v).readVal b = if b = a ∧ a < s.cfg.memSize then v else s.readVal b := by
  by_cases hb : b < s.cfg.memSize
  · rw [State.readVal_of_lt s b hb, State.readVal_of_lt _ b (by simpa using hb), State.peek_memWrite]
  · have hne : ¬ (b = a ∧ a < s.cfg.memSize) := by omega
    rw [if_neg hne, State.readVal_of_ge s b hb, State.readVal_of_ge _ b (by simpa using hb)]

/-- A bus read changes the fault log and the record of bus operations, and nothing else. -/
theorem State.afterRead_frame (s : State) (a : Nat) :
    s.afterRead a = { s with faultLog := (s.afterRead a).faultLog, busTrace := (s.afterRead a).busTrace } := by
  by_cases h : a < s.cfg.memSize
  · rw [State.afterRead_of_lt s a h]; rfl
  · rw [State.afterRead_of_ge s a h]; rfl

/-- A bus write changes memory, the fault log and the record of bus operations, and nothing else. -/
theorem State.memWrite_frame (s : State) (a : Nat) (v : Byte) :
    s.memWrite a v = { s with mem := (s.memWrite a v).mem, faultLog := (s.memWrite a v).faultLog,
                              busTrace := (s.memWrite a v).busTrace } := by
  by_cases h : a < s.cfg.memSize
  · rw [State.memWrite_of_lt s a v h]; rfl
  · rw [State.memWrite_of_ge s a v h]; rfl

/-- Settles O47: the two sides of the range check, and the frame of each access. -/
theorem busReadsBackAndReportsOnce : Obligations.BusReadsBackAndReportsOnce := by
  intro s a v
  refine ⟨fun hin => ⟨?_, fun b hb => ?_, ?_, ?_, State.readVal_of_lt s a hin⟩,
    fun hout => ?_, State.afterRead_frame s a, State.memWrite_frame s a v⟩
  · rw [State.readVal_memWrite, if_pos ⟨rfl, hin⟩]
  · rw [State.readVal_memWrite, if_neg fun h => hb h.1]
  · rw [State.memWrite_faultLog, if_pos hin]
  · rw [State.afterRead_faultLog, if_pos hin]
  · have hge : ¬ a < s.cfg.memSize := Nat.not_lt.mpr hout
    refine ⟨State.readVal_of_ge s a hge, ?_, ?_, ?_⟩
    · rw [State.memWrite_mem, if_neg hge]
    · rw [State.afterRead_faultLog, if_neg hge]
    · rw [State.memWrite_faultLog, if_neg hge]

/-! ## Records appended by a run of accesses -/

theorem AppendsFaults.refl (s : State) : AppendsFaults s s [] := ⟨[], by simp, rfl⟩

theorem AppendsFaults.trans {s t u : State} {l m : List (FaultKind × Option Nat)} (h : AppendsFaults s t l)
    (h' : AppendsFaults t u m) : AppendsFaults s u (l ++ m) := by
  obtain ⟨new, hlog, hl⟩ := h
  obtain ⟨new', hlog', hm⟩ := h'
  exact ⟨new ++ new', by rw [hlog', hlog, List.append_assoc], by rw [List.map_append, hl, hm]⟩

/-- The appended records depend on the later state's fault log alone. -/
theorem AppendsFaults.of_log_eq {s t u : State} {l : List (FaultKind × Option Nat)} (h : AppendsFaults s t l)
    (hlog : u.faultLog = t.faultLog) : AppendsFaults s u l := by
  obtain ⟨new, ht, hl⟩ := h
  exact ⟨new, hlog.trans ht, hl⟩

theorem rangeFaults_one (c : Config) (k : FaultKind) (a : Nat) :
    rangeFaults c k a 1 = if a < c.memSize then [] else [(k, some a)] := by
  by_cases h : a < c.memSize
  · simp [rangeFaults, h, Nat.not_le.mpr h]
  · simp [rangeFaults, h, Nat.not_lt.mp h]

/-- The reports of an ascending run: those of the lowest address, then those of the rest. -/
theorem rangeFaults_succ (c : Config) (k : FaultKind) (a n : Nat) :
    rangeFaults c k a (n + 1) = rangeFaults c k a 1 ++ rangeFaults c k (a + 1) n := by
  unfold rangeFaults
  rw [Nat.add_comm n 1, List.range_add, List.filter_append, List.map_append, List.filter_map, List.map_map]
  simp only [Function.comp_def, Nat.add_assoc]

theorem appendsFaults_memWrite (s : State) (a : Nat) (v : Byte) :
    AppendsFaults s (s.memWrite a v) (rangeFaults s.cfg .outOfBoundsWrite a 1) := by
  rw [rangeFaults_one]
  by_cases h : a < s.cfg.memSize
  · rw [if_pos h]
    exact (AppendsFaults.refl s).of_log_eq (by rw [State.memWrite_faultLog, if_pos h])
  · rw [if_neg h]
    exact ⟨[s.faultRecord .outOfBoundsWrite (some a)], by rw [State.memWrite_faultLog, if_neg h], rfl⟩

/-! ## Writes to ascending addresses -/

theorem State.writeBytes_nil (s : State) (a : Nat) : s.writeBytes a [] = s := rfl

theorem State.writeBytes_cons (s : State) (a : Nat) (v : Byte) (rest : List Byte) :
    s.writeBytes a (v :: rest) = (s.memWrite a v).writeBytes (a + 1) rest := rfl

/-- A run of writes changes memory, the fault log and the record of bus operations, and nothing else. -/
theorem State.writeBytes_frame (s : State) (a : Nat) (bytes : List Byte) :
    s.writeBytes a bytes = { s with mem := (s.writeBytes a bytes).mem, faultLog := (s.writeBytes a bytes).faultLog,
                                    busTrace := (s.writeBytes a bytes).busTrace } := by
  induction bytes generalizing s a with
  | nil => rfl
  | cons v rest ih =>
    rw [State.writeBytes_cons, ih]
    simp

/-- A byte of memory after bytes are written from address `a`. -/
theorem State.peek_writeBytes (s : State) (a : Nat) (bytes : List Byte) (b : Nat) :
    (s.writeBytes a bytes).peek b =
      if a ≤ b ∧ b < a + bytes.length ∧ b < s.cfg.memSize then bytes.getD (b - a) 0 else s.peek b := by
  induction bytes generalizing s a with
  | nil => rw [State.writeBytes_nil, if_neg (by simp; omega)]
  | cons v rest ih =>
    rw [State.writeBytes_cons, ih, State.memWrite_cfg, State.peek_memWrite, List.length_cons]
    rcases Nat.lt_trichotomy b a with hlt | rfl | hgt
    · rw [if_neg (by omega), if_neg (by omega), if_neg (by omega)]
    · rw [if_neg (by omega)]
      simp
    · have hne : ¬ (b = a ∧ a < s.cfg.memSize) := by omega
      have hidx : b - a = b - (a + 1) + 1 := by omega
      have hrange : (a ≤ b ∧ b < a + (rest.length + 1) ∧ b < s.cfg.memSize) ↔
          (a + 1 ≤ b ∧ b < a + 1 + rest.length ∧ b < s.cfg.memSize) := by omega
      rw [if_neg hne, hidx, List.getD_cons_succ]
      simp only [hrange]

/-- A run of writes appends one record for each address past the memory, in ascending order (R84, R95). -/
theorem appendsFaults_writeBytes (s : State) (a : Nat) (bytes : List Byte) :
    AppendsFaults s (s.writeBytes a bytes) (rangeFaults s.cfg .outOfBoundsWrite a bytes.length) := by
  induction bytes generalizing s a with
  | nil => exact AppendsFaults.refl s
  | cons v rest ih =>
    have hrest := ih (s.memWrite a v) (a + 1)
    rw [State.memWrite_cfg] at hrest
    rw [State.writeBytes_cons, List.length_cons, rangeFaults_succ]
    exact (appendsFaults_memWrite s a v).trans hrest

/-! ## `loadProgram` (R95) -/

theorem State.loadProgram_of65 {s : State} (h : s.cfg.arch.is65 = true) (bytes : List Byte) :
    s.loadProgram bytes = s.writeBytes s.cfg.programOrigin bytes := by simp [State.loadProgram, h]

theorem State.loadProgram_ofC8 {s : State} (h : s.cfg.arch.is65 = false) (bytes : List Byte) :
    s.loadProgram bytes = (s.writeBytes s.cfg.programOrigin bytes).setFb FrameBuf.blank := by
  simp [State.loadProgram, h]

/-- On either family a load is the run of writes, with perhaps another framebuffer. -/
theorem State.loadProgram_eq_setFb (s : State) (bytes : List Byte) :
    s.loadProgram bytes = (s.writeBytes s.cfg.programOrigin bytes).setFb (s.loadProgram bytes).c8.fb := by
  cases h : s.cfg.arch.is65 with
  | true => rw [State.loadProgram_of65 h]; rfl
  | false => rw [State.loadProgram_ofC8 h]; rfl

theorem State.loadProgram_fb_of65 {s : State} (h : s.cfg.arch.is65 = true) (bytes : List Byte) :
    (s.loadProgram bytes).c8.fb = s.c8.fb := by
  rw [State.loadProgram_of65 h, State.writeBytes_frame]

theorem State.loadProgram_fb_ofC8 {s : State} (h : s.cfg.arch.is65 = false) (bytes : List Byte) :
    (s.loadProgram bytes).c8.fb = FrameBuf.blank := by
  rw [State.loadProgram_ofC8 h, State.setFb_c8]

theorem State.peek_loadProgram (s : State) (bytes : List Byte) (a : Nat) :
    (s.loadProgram bytes).peek a = (s.writeBytes s.cfg.programOrigin bytes).peek a := by
  rw [State.loadProgram_eq_setFb, State.peek_setFb]

theorem State.loadProgram_faultLog (s : State) (bytes : List Byte) :
    (s.loadProgram bytes).faultLog = (s.writeBytes s.cfg.programOrigin bytes).faultLog := by
  rw [State.loadProgram_eq_setFb, State.setFb_faultLog]

/-- A load changes the framebuffer, memory, the fault log and the record of bus operations, and nothing else. -/
theorem State.loadProgram_frame (s : State) (bytes : List Byte) :
    s.loadProgram bytes =
      { s with c8 := { s.c8 with fb := (s.loadProgram bytes).c8.fb }, mem := (s.loadProgram bytes).mem,
               faultLog := (s.loadProgram bytes).faultLog, busTrace := (s.loadProgram bytes).busTrace } := by
  rw [State.loadProgram_eq_setFb, State.writeBytes_frame]
  rfl

/-- Settles O53: a load is a run of bus writes from the program origin, then the clear of `FB` on the CHIP-8 family. -/
theorem loadProgramCopiesBytes : Obligations.LoadProgramCopiesBytes := by
  intro s bytes origin
  refine ⟨s.loadProgram bytes, rfl, State.loadProgram_frame s bytes, fun h => State.loadProgram_fb_of65 h bytes,
    fun h x y => ?_, fun a => ?_, ?_⟩
  · rw [State.loadProgram_fb_ofC8 h, FrameBuf.cell_blank]
  · exact (State.peek_loadProgram s bytes a).trans (State.peek_writeBytes s origin bytes a)
  · exact (appendsFaults_writeBytes s origin bytes).of_log_eq (State.loadProgram_faultLog s bytes)

end Sys2Proof.Machine
end

section
/-! PROOF. The decoder and the encoder are inverse (30_encoding.md R125, R130, R131, R135, R136, R137). On the 6502 family
the opcode byte is the row; on the CHIP-8 family a word is put together from the digits the decoder dispatches on and the
fields it reads out. Each half ends in one equivalence, and the two give one for `decode`. -/

namespace Sys2Proof.Machine

-- The theorems one after the other: elaborated at once they ask for a thread each.
set_option Elab.async false

/-! ## The 6502 family (R125, R126) -/

/-- The opcode byte of a table row is the one the encoder gives its instruction. -/
theorem encode65_of_mem_opcodeTable {p : Byte × Instr} (h : p ∈ opcodeTable) : encode65 p.2 = some p.1 := by
  have hall : (opcodeTable.all fun q => decide (encode65 q.2 = some q.1)) = true := rfl
  exact of_decide_eq_true (List.all_eq_true.mp hall p h)

/-- The row of a byte is the one whose opcode it is: the table holds every 6502 row, and under its own opcode. -/
theorem decode65_eq_ok_iff {b : Byte} {i : Instr} : decode65 b = .ok i ↔ encode65 i = some b := by
  constructor
  · intro h
    unfold decode65 at h
    split at h
    · next j hj =>
      cases h
      obtain ⟨l₁, l₂, hl, -⟩ := List.lookup_eq_some_iff.mp hj
      exact encode65_of_mem_opcodeTable (p := (b, i)) (by simp [hl])
    · cases h
  · -- A CHIP-8 row has no opcode byte; a 6502 row is looked up under the one it has.
    intro h
    cases i <;> cases h <;> rfl

/-! ## The words of the CHIP-8 family, from their digits (R131) -/

section
variable (t x y n : BitVec 4) (nn : Byte) (nnn : BitVec 12)

@[simp] theorem opTop_digits : opTop (t ++ x ++ y ++ n) = t := by
  apply BitVec.eq_of_toNat_eq; rw [opTop_toNat, toNat_digits]; omega

@[simp] theorem opX_digits : opX (t ++ x ++ y ++ n) = x := by
  apply BitVec.eq_of_toNat_eq; rw [opX_toNat, toNat_digits]; omega

@[simp] theorem opY_digits : opY (t ++ x ++ y ++ n) = y := by
  apply BitVec.eq_of_toNat_eq; rw [opY_toNat, toNat_digits]; omega

@[simp] theorem opN_digits : opN (t ++ x ++ y ++ n) = n := by
  apply BitVec.eq_of_toNat_eq; rw [opN_toNat, toNat_digits]; omega

@[simp] theorem opTop_digit_byte : opTop (t ++ x ++ nn) = t := by
  apply BitVec.eq_of_toNat_eq; rw [opTop_toNat, toNat_digit_byte]; omega

@[simp] theorem opX_digit_byte : opX (t ++ x ++ nn) = x := by
  apply BitVec.eq_of_toNat_eq; rw [opX_toNat, toNat_digit_byte]; omega

@[simp] theorem opNN_digit_byte : opNN (t ++ x ++ nn) = nn := by
  apply BitVec.eq_of_toNat_eq; rw [opNN_toNat, toNat_digit_byte]; omega

@[simp] theorem opTop_digit_addr : opTop (t ++ nnn) = t := by
  apply BitVec.eq_of_toNat_eq; rw [opTop_toNat, toNat_digit_addr]; omega

@[simp] theorem opNNN_digit_addr : opNNN (t ++ nnn) = nnn := by
  apply BitVec.eq_of_toNat_eq; rw [opNNN_toNat, toNat_digit_addr]; omega

end

/-- A word is its four digits. -/
theorem digits_eq {w : Word} {t n : BitVec 4} (ht : opTop w = t) (hn : opN w = n) :
    t ++ opX w ++ opY w ++ n = w := by
  subst ht hn
  apply BitVec.eq_of_toNat_eq
  rw [toNat_digits, opTop_toNat, opX_toNat, opY_toNat, opN_toNat]; omega

/-- A word is its top digit, its digit `x` and its low byte. -/
theorem digit_byte_eq {w : Word} {t : BitVec 4} {nn : Byte} (ht : opTop w = t) (hnn : opNN w = nn) :
    t ++ opX w ++ nn = w := by
  subst ht hnn
  apply BitVec.eq_of_toNat_eq
  rw [toNat_digit_byte, opTop_toNat, opX_toNat, opNN_toNat]; omega

/-- A word is its top digit and its address field. -/
theorem digit_addr_eq {w : Word} {t : BitVec 4} (ht : opTop w = t) : t ++ opNNN w = w := by
  subst ht
  apply BitVec.eq_of_toNat_eq
  rw [toNat_digit_addr, opTop_toNat, opNNN_toNat]; omega

/-- A word is its upper twelve bits and its last digit, the split of the rows 00Cn and 00Dn. -/
theorem upper_digit_eq {w : Word} {u : BitVec 12} (hu : w.extractLsb' 4 12 = u) : u ++ opN w = w := by
  subst hu
  apply BitVec.eq_of_toNat_eq
  rw [toNat_append_mul, BitVec.extractLsb'_toNat, opN_toNat, Nat.shiftRight_eq_div_pow]; omega

/-! ## What the CHIP-8 decoder reads, encodes back to the word -/

/-- An optional row, if there is one, has the word as its encoding. -/
def EncodesTo (w : Word) (o : Option Instr) : Prop := ∀ i ∈ o, encodeC8 i = some w

theorem encodesTo_none (w : Word) : EncodesTo w none := fun _ h => by cases h

/-- `v` is the word as the encoder builds it for the row. -/
theorem encodesTo_some {w v : Word} {i : Instr} (hv : v = w) (hi : encodeC8 i = some v := by rfl) :
    EncodesTo w (some i) := fun _ hj => by cases hj; exact hi.trans (congrArg some hv)

theorem encodesTo_ite {w : Word} {p : Prop} [Decidable p] {o o' : Option Instr} (h : p → EncodesTo w o)
    (h' : EncodesTo w o') : EncodesTo w (if p then o else o') := by
  split
  · next hp => exact h hp
  · exact h'

/-- What stands behind the test for XOCHIP. -/
theorem encodesTo_guard {a : Arch} {w : Word} {o : Option Instr} (h : EncodesTo w o) :
    EncodesTo w (if a = .xochip then o else none) := encodesTo_ite (fun _ => h) (encodesTo_none w)

theorem decodeTop0_encodesTo (a : Arch) (w : Word) : EncodesTo w (decodeTop0 a w) := by
  have hword : ∀ {v : Word} {i : Instr}, encodeC8 i = some v → w = v → EncodesTo w (some i) :=
    fun hi hw => encodesTo_some hw.symm hi
  refine encodesTo_ite (hword rfl) (encodesTo_ite (hword rfl) (encodesTo_guard ?_))
  refine encodesTo_ite (fun h => encodesTo_some (upper_digit_eq h)) ?_
  refine encodesTo_ite (fun h => encodesTo_some (upper_digit_eq h)) ?_
  iterate 4 refine encodesTo_ite (hword rfl) ?_
  exact encodesTo_none w

theorem decodeTop5_encodesTo (a : Arch) {w : Word} (ht : opTop w = 0x5) : EncodesTo w (decodeTop5 a w) := by
  refine encodesTo_ite (fun h => encodesTo_some (digits_eq ht h)) (encodesTo_guard ?_)
  iterate 2 refine encodesTo_ite (fun h => encodesTo_some (digits_eq ht h)) ?_
  exact encodesTo_none w

theorem decodeTop8_encodesTo {w : Word} (ht : opTop w = 0x8) : EncodesTo w (decodeTop8 w) := by
  unfold decodeTop8
  iterate 9 refine encodesTo_ite (fun h => encodesTo_some (digits_eq ht h)) ?_
  exact encodesTo_none w

theorem decodeTopE_encodesTo {w : Word} (ht : opTop w = 0xE) : EncodesTo w (decodeTopE w) := by
  unfold decodeTopE
  iterate 2 refine encodesTo_ite (fun h => encodesTo_some (digit_byte_eq ht h)) ?_
  exact encodesTo_none w

theorem decodeTopFBase_encodesTo {w : Word} (ht : opTop w = 0xF) : EncodesTo w (decodeTopFBase w) := by
  unfold decodeTopFBase
  iterate 9 refine encodesTo_ite (fun h => encodesTo_some (digit_byte_eq ht h)) ?_
  exact encodesTo_none w

theorem decodeTopFExt_encodesTo {w : Word} (ht : opTop w = 0xF) : EncodesTo w (decodeTopFExt w) := by
  unfold decodeTopFExt
  iterate 2 refine encodesTo_ite (fun h => encodesTo_some h.symm) ?_
  iterate 5 refine encodesTo_ite (fun h => encodesTo_some (digit_byte_eq ht h)) ?_
  exact encodesTo_none w

theorem decodeTopF_encodesTo (a : Arch) {w : Word} (ht : opTop w = 0xF) : EncodesTo w (decodeTopF a w) := by
  unfold decodeTopF
  cases h : decodeTopFBase w with
  | some i => exact fun j hj => decodeTopFBase_encodesTo ht j (h.trans hj)
  | none => exact encodesTo_guard (decodeTopFExt_encodesTo ht)

theorem decodeC8Row_encodesTo (a : Arch) (w : Word) : EncodesTo w (decodeC8Row a w) := by
  have htop : ∀ t : BitVec 4, (opTop w).toNat = t.toNat → opTop w = t := fun _ => BitVec.eq_of_toNat_eq
  unfold decodeC8Row
  split
  case h_1 => exact decodeTop0_encodesTo a w
  case h_2 h => exact encodesTo_some (digit_addr_eq (htop 0x1 h))
  case h_3 h => exact encodesTo_some (digit_addr_eq (htop 0x2 h))
  case h_4 h => exact encodesTo_some (digit_byte_eq (htop 0x3 h) rfl)
  case h_5 h => exact encodesTo_some (digit_byte_eq (htop 0x4 h) rfl)
  case h_6 h => exact decodeTop5_encodesTo a (htop 0x5 h)
  case h_7 h => exact encodesTo_some (digit_byte_eq (htop 0x6 h) rfl)
  case h_8 h => exact encodesTo_some (digit_byte_eq (htop 0x7 h) rfl)
  case h_9 h => exact decodeTop8_encodesTo (htop 0x8 h)
  case h_10 h =>
    exact encodesTo_ite (fun hn => encodesTo_some (digits_eq (htop 0x9 h) hn)) (encodesTo_none w)
  case h_11 h => exact encodesTo_some (digit_addr_eq (htop 0xA h))
  case h_12 h => exact encodesTo_some (digit_addr_eq (htop 0xB h))
  case h_13 h => exact encodesTo_some (digit_byte_eq (htop 0xC h) rfl)
  case h_14 h => exact encodesTo_some (digits_eq (htop 0xD h) rfl)
  case h_15 h => exact decodeTopE_encodesTo (htop 0xE h)
  case h_16 =>
    refine decodeTopF_encodesTo a (htop 0xF ?_)
    have hlt := (opTop w).isLt
    simp only [imp_false] at *
    show (opTop w).toNat = 15
    omega

/-! ## The encoding of a row decodes to it -/

/-- The rows of 00Cn and 00Dn, for each of the sixteen `n`. -/
theorem decodeC8Row_scroll : ∀ n : BitVec 4, decodeC8Row .xochip (0x00C#12 ++ n) = some (.scd n) ∧
    decodeC8Row .xochip (0x00D#12 ++ n) = some (.scu n) := by decide

/-- A word whose low byte is not that of `v` is not `v`. -/
theorem digit_byte_ne {t x : BitVec 4} {nn nn' : Byte} {v : Word} (hv : opNN v = nn') (h : nn ≠ nn') :
    t ++ x ++ nn ≠ v := by
  rintro rfl
  exact h ((opNN_digit_byte t x nn).symm.trans hv)

/-- The rows of R135 decode on both architectures. -/
theorem decodeC8Row_of_chip8 {i : Instr} {w : Word} (ht : i.table = .chip8) (h : encodeC8 i = some w) (a : Arch) :
    decodeC8Row a w = some i := by
  cases i
  case cls | ret => cases h; rfl
  all_goals cases ht <;> cases h
  all_goals simp [decodeC8Row, decodeTop5, decodeTop8, decodeTopE, decodeTopF, decodeTopFBase]

/-- The rows of R136 decode on XOCHIP: a row Fx passes the tests for the two whole words F000 and F002. -/
theorem decodeC8Row_of_xochip {i : Instr} {w : Word} (ht : i.table = .xochip) (h : encodeC8 i = some w) :
    decodeC8Row .xochip w = some i := by
  have hlong : ∀ {x : BitVec 4} {nn : Byte}, nn ≠ 0x00#8 → 0xF#4 ++ x ++ nn ≠ 0xF000#16 := digit_byte_ne rfl
  have haudio : ∀ {x : BitVec 4} {nn : Byte}, nn ≠ 0x02#8 → 0xF#4 ++ x ++ nn ≠ 0xF002#16 := digit_byte_ne rfl
  cases i
  case scr | scl | low | high | ldILong | audio => cases h; rfl
  case scd n => cases h; exact (decodeC8Row_scroll n).1
  case scu n => cases h; exact (decodeC8Row_scroll n).2
  all_goals cases ht <;> cases h
  all_goals simp [decodeC8Row, decodeTop5, decodeTopF, decodeTopFBase, decodeTopFExt, hlong, haudio]

/-! ## Which rows have which opcode -/

/-- Exactly the rows of R125 have an opcode byte. -/
theorem encode65_isSome (i : Instr) : (encode65 i).isSome = decide (i.table = .m65) := by cases i <;> rfl

/-- Exactly the rows of R135 and R136 have an opcode word. -/
theorem encodeC8_isSome (i : Instr) : (encodeC8 i).isSome = decide (i.table ≠ .m65) := by cases i <;> rfl

theorem table_ne_m65_of_encodeC8 {i : Instr} {w : Word} (h : encodeC8 i = some w) : i.table ≠ .m65 := by
  have hs := encodeC8_isSome i
  rw [h] at hs
  exact of_decide_eq_true hs.symm

/-- The bytes of a 6502 row are its opcode byte. -/
theorem encode65_eq_some_iff {i : Instr} {b : Byte} : encode65 i = some b ↔ i.table = .m65 ∧ encode i = [b] := by
  have h65 := encode65_isSome i
  unfold encode
  cases h : encode65 i with
  | some c => simp_all
  | none => simp_all

theorem mkWord_eq_iff {w : Word} {hi lo : Byte} : w = mkWord hi lo ↔ hiByte w = hi ∧ loByte w = lo := by
  constructor
  · rintro rfl
    exact ⟨hiByte_mkWord hi lo, loByte_mkWord hi lo⟩
  · rintro ⟨rfl, rfl⟩
    exact (mkWord_hi_lo w).symm

/-- The bytes of a CHIP-8 row are its opcode word, the more significant byte first (R86). -/
theorem encodeC8_eq_some_iff {i : Instr} {hi lo : Byte} :
    encodeC8 i = some (mkWord hi lo) ↔ i.table ≠ .m65 ∧ encode i = [hi, lo] := by
  have h65 := encode65_isSome i
  have h8 := encodeC8_isSome i
  unfold encode
  cases h : encode65 i with
  | some b => simp_all
  | none =>
    cases hw : encodeC8 i with
    | none => simp_all
    | some w => simp_all [mkWord_eq_iff]

/-! ## The CHIP-8 family (R135, R136, R137) -/

/-- The row of a word is the one whose opcode it is, a row of R136 on XOCHIP alone. -/
theorem decodeC8Row_eq_some_iff {a : Arch} {w : Word} {i : Instr} :
    decodeC8Row a w = some i ↔ encodeC8 i = some w ∧ (i.table = .xochip → a = .xochip) := by
  constructor
  · exact fun h => ⟨decodeC8Row_encodesTo a w i h, decodeC8Row_xochip a w i h⟩
  · rintro ⟨h, hx⟩
    cases ht : i.table with
    | m65 => exact absurd ht (table_ne_m65_of_encodeC8 h)
    | chip8 => exact decodeC8Row_of_chip8 ht h a
    | xochip => rw [hx ht]; exact decodeC8Row_of_xochip ht h

theorem decodeC8_eq_ok_iff {a : Arch} {w : Word} {i : Instr} :
    decodeC8 a w = .ok i ↔ encodeC8 i = some w ∧ (i.table = .xochip → a = .xochip) := by
  rw [← decodeC8Row_eq_some_iff, decodeC8]
  cases decodeC8Row a w <;> simp

/-! ## Bytes -/

theorem decode_cons_of65 {a : Arch} (ha : a.is65 = true) (b : Byte) (l : List Byte) :
    decode a (b :: l) = (decode65 b).map fun i => (i, l) := by
  cases l <;> simp [decode, ha]

theorem decode_cons_cons_ofC8 {a : Arch} (ha : a.is65 = false) (hi lo : Byte) (l : List Byte) :
    decode a (hi :: lo :: l) = (decodeC8 a (mkWord hi lo)).map fun i => (i, l) := by
  simp [decode, ha]

theorem except_map_pair_eq_ok_iff {x : Except DecodeError Instr} {i : Instr} {l rest : List Byte} :
    (x.map fun j => (j, l)) = .ok (i, rest) ↔ x = .ok i ∧ l = rest := by
  cases x <;> simp [Except.map]

/-- A decoder of the 6502 family takes one byte. -/
theorem decode_eq_ok_iff_of65 {a : Arch} (ha : a.is65 = true) {bytes rest : List Byte} {i : Instr} :
    decode a bytes = .ok (i, rest) ↔ ∃ b, bytes = b :: rest ∧ decode65 b = .ok i := by
  cases bytes with
  | nil => simp [decode]
  | cons b l =>
    rw [decode_cons_of65 ha, except_map_pair_eq_ok_iff]
    constructor
    · rintro ⟨h, rfl⟩
      exact ⟨b, rfl, h⟩
    · rintro ⟨_, ⟨⟩, h⟩
      exact ⟨h, rfl⟩

/-- A decoder of the CHIP-8 family takes two bytes, the more significant first. -/
theorem decode_eq_ok_iff_ofC8 {a : Arch} (ha : a.is65 = false) {bytes rest : List Byte} {i : Instr} :
    decode a bytes = .ok (i, rest) ↔
      ∃ hi lo, bytes = hi :: lo :: rest ∧ decodeC8 a (mkWord hi lo) = .ok i := by
  match bytes with
  | [] => simp [decode]
  | [_] => simp [decode, ha]
  | hi :: lo :: l =>
    rw [decode_cons_cons_ofC8 ha, except_map_pair_eq_ok_iff]
    constructor
    · rintro ⟨h, rfl⟩
      exact ⟨hi, lo, rfl, h⟩
    · rintro ⟨_, _, ⟨⟩, h⟩
      exact ⟨h, rfl⟩

/-! ## Both families -/

theorem wellFormed_of65 {a : Arch} (ha : a.is65 = true) (i : Instr) : i.wellFormed a = true ↔ i.table = .m65 := by
  unfold Instr.wellFormed
  cases a <;> cases ha <;> cases i.table <;> decide

theorem wellFormed_ofC8 {a : Arch} (ha : a.is65 = false) (i : Instr) :
    i.wellFormed a = true ↔ i.table ≠ .m65 ∧ (i.table = .xochip → a = .xochip) := by
  unfold Instr.wellFormed
  cases a <;> cases ha <;> cases i.table <;> decide

/-- Exactly the bytes at whose head the encoding of an instruction of the architecture stands decode to it. -/
theorem decode_eq_ok_iff {a : Arch} {bytes rest : List Byte} {i : Instr} :
    decode a bytes = .ok (i, rest) ↔ i.wellFormed a = true ∧ bytes = encode i ++ rest := by
  cases ha : a.is65 with
  | true =>
    rw [decode_eq_ok_iff_of65 ha, wellFormed_of65 ha]
    simp only [decode65_eq_ok_iff, encode65_eq_some_iff]
    constructor
    · rintro ⟨b, rfl, ht, he⟩
      exact ⟨ht, by rw [he]; rfl⟩
    · rintro ⟨ht, rfl⟩
      obtain ⟨b, hb⟩ := Option.isSome_iff_exists.mp ((encode65_isSome i).trans (decide_eq_true ht))
      have he := (encode65_eq_some_iff.mp hb).2
      exact ⟨b, by rw [he]; rfl, ht, he⟩
  | false =>
    rw [decode_eq_ok_iff_ofC8 ha, wellFormed_ofC8 ha]
    simp only [decodeC8_eq_ok_iff, encodeC8_eq_some_iff]
    constructor
    · rintro ⟨hi, lo, rfl, ⟨ht, he⟩, hx⟩
      exact ⟨⟨ht, hx⟩, by rw [he]; rfl⟩
    · rintro ⟨⟨ht, hx⟩, rfl⟩
      obtain ⟨w, hw⟩ := Option.isSome_iff_exists.mp ((encodeC8_isSome i).trans (decide_eq_true ht))
      rw [← mkWord_hi_lo w, encodeC8_eq_some_iff] at hw
      exact ⟨hiByte w, loByte w, by rw [hw.2]; rfl, hw, hx⟩

/-- Settles O54: the two directions of the equivalence. -/
theorem decodeAndEncodeAgree : Obligations.DecodeAndEncodeAgree :=
  ⟨fun _ _ _ h => decode_eq_ok_iff.mpr ⟨h, rfl⟩, fun _ _ _ _ h => decode_eq_ok_iff.mp h⟩

/-- Settles O55: each legal word is the encoding of its instruction, and the rejected ones match no row. -/
theorem sampleWordsDecode : Obligations.SampleWordsDecode := by
  refine ⟨?ldaImm, ?aslAbx, ?jmpInd, rfl, ?jp, ?drw, ?saveRange, rfl, ?ldILong, ?plane, rfl⟩
  all_goals exact decode_eq_ok_iff.mpr ⟨rfl, rfl⟩

end Sys2Proof.Machine
end

section
/-! PROOF. The Fetch of the 6502 engine (40_m65_engine.md R161, R162), and the step of both engines as the meaning of the
decoded instruction (R160, 45_c8_engine.md R322). -/

namespace Sys2Proof.Machine

/-! ## The Fetch (R161, R162) -/

/-- A legal opcode is latched and starts its sequence. -/
theorem fetch65_ok {s : State} {i : Instr} (h65 : s.cfg.arch.is65 = true) (hd : decode65 (s.peekW s.m65.pc) = .ok i) :
    s.fetch65 = { s with
      m65 := { s.m65 with ir := s.peekW s.m65.pc, pc := s.m65.pc + 1, t := 1 }
      busTrace := s.busTrace ++ [.read s.m65.pc.toNat (s.peekW s.m65.pc) false] } := by
  simp only [State.fetch65, readVal65 h65, hd, readRow_eq_of65 h65]
  rfl

/-- An illegal opcode is latched and reported from the state the latch leaves. -/
theorem fetch65_error {s : State} {e : DecodeError} (h65 : s.cfg.arch.is65 = true)
    (hd : decode65 (s.peekW s.m65.pc) = .error e) :
    s.fetch65 = State.raise { s with
      m65 := { s.m65 with ir := s.peekW s.m65.pc, pc := s.m65.pc + 1 }
      busTrace := s.busTrace ++ [.read s.m65.pc.toNat (s.peekW s.m65.pc) false] } .illegalOpcode none := by
  simp only [State.fetch65, readVal65 h65, hd, readRow_eq_of65 h65]

/-- `dumpState()` on the 6502 family (R77). -/
theorem dumpState_of65 {s : State} (h65 : s.cfg.arch.is65 = true) :
    s.dumpState = .m65 { a := s.m65.a, x := s.m65.x, y := s.m65.y, s := s.m65.s, pc := s.m65.pc, p := s.m65.p,
                         ir := s.m65.ir, t := s.m65.t } := by
  unfold State.dumpState
  cases ha : s.cfg.arch with
  | m6502 => rfl
  | n6502 => rfl
  | chip8 => rw [ha] at h65; cases h65
  | xochip => rw [ha] at h65; cases h65

/-- The record of a fault on the 6502 family (R441). -/
theorem faultRecord_of65 {s : State} (h65 : s.cfg.arch.is65 = true) (k : FaultKind) (info : Option Nat) :
    s.faultRecord k info =
      { kind := k, arch := s.cfg.arch, opcode := zext8 s.m65.ir, pc := s.m65.pc,
        regs := .m65 { a := s.m65.a, x := s.m65.x, y := s.m65.y, s := s.m65.s, pc := s.m65.pc, p := s.m65.p,
                       ir := s.m65.ir, t := s.m65.t },
        info := info } := by
  simp only [State.faultRecord, dumpState_of65 h65, h65, if_true]

theorem tick65_fetch {s : State} (h0 : s.m65.t = 0) : tick65 s = .next s.fetch65 := by
  simp [tick65, h0]

/-- Settles O21: the two cases of the decoder. -/
theorem fetchLatchesOrReports : Obligations.FetchLatchesOrReports := by
  intro s h65 h0
  dsimp only
  refine ⟨fun i hd => ?_, fun e hd => ?_⟩
  · rw [tick65_fetch h0, fetch65_ok h65 hd]
  · rw [tick65_fetch h0, fetch65_error h65 hd, State.raise, faultRecord_of65 (by exact h65)]
    simp only [h0]

/-! ## The step (R160, R322, R480) -/

theorem runToReady65_fetch {s : State} {i : Instr} (h65 : s.cfg.arch.is65 = true) (h0 : s.m65.t = 0)
    (hd : decode65 (s.peekW s.m65.pc) = .ok i) : runToReady65 s = exec i s.fetch65 := by
  simp [runToReady65, h0, readVal65 h65, hd]

theorem runToReady65_inFlight {s : State} {i : Instr} (hT : s.m65.t ≠ 0) (hd : decode65 s.m65.ir = .ok i) :
    runToReady65 s = exec i s := by
  rw [runToReady65, if_neg hT, hd]

/-- Neither the halt nor the breakpoint of XOCHIP holds the engine, and the bytes at `PC` are an instruction. -/
theorem tickC8_one_ok {s : State} {i : Instr}
    (hfree : s.cfg.arch = .xochip → s.xo.halted = false ∧ (s.xo.bpEn = true → s.c8.pc ≠ s.xo.bpAddr))
    (hd : decodeC8 s.cfg.arch (s.readVal2 s.c8.pc.toNat) = .ok i) : tickC8 1 s = exec i s.fetchC8 := by
  have hrun : ¬ (s.cfg.arch = .xochip ∧ s.xo.halted = true) := fun ⟨hx, hh⟩ => by simp [(hfree hx).1] at hh
  have hbp : s.atBreakpoint = false := by
    unfold State.atBreakpoint
    by_cases hx : s.cfg.arch = .xochip
    · have hpc := (hfree hx).2
      cases hen : s.xo.bpEn <;> simp_all
    · simp [hx]
  rw [tickC8_one, if_neg hrun, hbp, macroStep_ok hd]
  rfl

/-- Settles O22: the step is the engine's, or the pending operation's. -/
theorem stepRunsDecodedInstruction : Obligations.StepRunsDecodedInstruction := by
  refine ⟨fun s i hq h65 h0 hd => ?_, fun s i hq h65 hT hd => ?_, fun s i hq hc8 hfree hd => ?_,
    fun s o rest hq => step_hostOp hq⟩
  · rw [step_instr65 hq h65, runToReady65_fetch h65 h0 hd, fetch65_ok h65 hd]
  · rw [step_instr65 hq h65, runToReady65_inFlight hT hd]
  · rw [step_instrC8 hq hc8, tickC8_one_ok hfree hd, State.fetchC8_eq s hc8]

end Sys2Proof.Machine
end

section
/-! PROOF. How many micro-cycles a 6502 instruction takes (40_m65_engine.md R168), and where a branch goes (R179, 43_m65_control.md
R280 to R287). -/

namespace Sys2Proof.Machine

/-! ## How many rows an instruction takes (R168) -/

/-- The modes in which the table of R125 has a class. -/
def classModes : Cls → List Mode
  | .imp => [.imp]
  | .acc => [.acc]
  | .br => [.rel]
  | .r => [.imm, .zp, .zpx, .zpy, .abs, .abx, .aby, .izx, .izy]
  | .w => [.zp, .zpx, .zpy, .abs, .abx, .aby, .izx, .izy]
  | .m => [.zp, .zpx, .abs, .abx]
  | .special => [.imp, .abs, .ind]

theorem mem_classModes_of_m65 {i : Instr} {mn : Mn} {mode : Mode} (h : i.m65 = some (mn, mode)) :
    mode ∈ classModes (mn.cls mode) := by
  cases i <;> cases h <;> decide

/-- A mode of the classes R, W and M names a byte of memory. -/
theorem effectiveAddr_of_mem_classModes {cls : Cls} {mode : Mode} (hc : usesMemory cls = true)
    (h : mode ∈ classModes cls) (s : State) : ∃ a, s.effectiveAddr mode = some a := by
  cases mode
  case imp | acc | rel | ind => cases cls <;> cases hc <;> exact absurd h (by decide)
  all_goals exact ⟨_, rfl⟩

/-- A finished run leaves `T` = 0 (R163). -/
theorem runCycles_t {mn : Mn} {mode : Mode} {fuel : Nat} {s t : State} (h : runCycles mn mode fuel s = .next t) :
    t.m65.t = 0 := by
  induction fuel generalizing s with
  | zero => cases h
  | succ fuel ih =>
    unfold runCycles at h
    split at h
    · cases h
    · split at h
      · next h0 => cases h; exact h0
      · exact ih h

/-- The SPECIAL instructions take the same number of rows in every state. -/
theorem runInstr65_special {mn : Mn} {mode : Mode} {s : State} (h : s.fetched65) (hc : mn.cls mode = .special) :
    ∃ t, runInstr65 mn mode s = .next t ∧ t.busTrace.length = s.busTrace.length + cycleCount mn mode s := by
  obtain ⟨h65, ht⟩ := h
  cases mn
  case jmp =>
    by_cases hm : mode = .ind
    · simp [runInstr65, runCycles, microCycle, cycleCount, Mn.cls, specialCycle, jmpIndCycle, Cpu65.next, ht, h65, hm]
    · simp [runInstr65, runCycles, microCycle, cycleCount, Mn.cls, specialCycle, jmpAbsCycle, Cpu65.next, ht, h65, hm]
  case brk | rti | rts | jsr | pha | php | pla | plp =>
    simp [runInstr65, runCycles, microCycle, cycleCount, Mn.cls, specialCycle, trapEntryCycle, trapReturnCycle, rtsCycle,
      jsrCycle, pushCycle, pullCycle, State.pushRow, State.dummyPcRow, State.dummyPullRow, Cpu65.next, ht, h65]
  all_goals cases mode <;> cases hc

/-- Every 6502 instruction completes in N micro-cycles (R168). -/
theorem runInstr65_count {i : Instr} {mn : Mn} {mode : Mode} {s : State} (hi : i.m65 = some (mn, mode))
    (h : s.fetched65) :
    ∃ t, runInstr65 mn mode s = .next t ∧ t.m65.t = 0 ∧
      t.busTrace.length = s.busTrace.length + cycleCount mn mode s := by
  suffices hrun : ∃ t, runInstr65 mn mode s = .next t ∧
      t.busTrace.length = s.busTrace.length + cycleCount mn mode s by
    obtain ⟨t, hr, hlen⟩ := hrun
    exact ⟨t, hr, runCycles_t hr, hlen⟩
  have hmode := mem_classModes_of_m65 hi
  cases hc : mn.cls mode <;> rw [hc] at hmode
  case r =>
    obtain ⟨a, ha⟩ := effectiveAddr_of_mem_classModes rfl hmode s
    obtain ⟨t, hr, -, -, hlen⟩ := runInstr65_read mn mode s h hc a ha
    exact ⟨t, hr, hlen⟩
  case w =>
    have himm : mode ≠ .imm := by rintro rfl; exact absurd hmode (by decide)
    obtain ⟨a, ha⟩ := effectiveAddr_of_mem_classModes rfl hmode s
    obtain ⟨t, hr, -, -, -, hlen⟩ := runInstr65_write mn mode s h hc himm a ha
    exact ⟨t, hr, hlen⟩
  case m =>
    obtain ⟨a, ha⟩ := effectiveAddr_of_mem_classModes rfl hmode s
    obtain ⟨t, hr, -, -, -, hlen⟩ := runInstr65_modify mn mode s h hc (by simpa [classModes] using hmode) a ha
    exact ⟨t, hr, hlen⟩
  case acc =>
    obtain rfl := List.mem_singleton.mp hmode
    obtain ⟨t, hr, -, -, hlen⟩ := runInstr65_acc mn s h hc
    exact ⟨t, hr, by simpa [cycleCount, hc] using hlen⟩
  case imp =>
    obtain rfl := List.mem_singleton.mp hmode
    obtain ⟨t, hr, -, -, hlen⟩ := runInstr65_imp mn s h hc
    exact ⟨t, hr, by simpa [cycleCount, hc] using hlen⟩
  case br =>
    obtain rfl := List.mem_singleton.mp hmode
    obtain ⟨t, hr, -, -, hlen⟩ := runInstr65_branch mn s h hc
    exact ⟨t, hr, hlen⟩
  case special => exact runInstr65_special h hc

/-- N is between 1 and 6. -/
theorem cycleCount_bounds (mn : Mn) (mode : Mode) (s : State) : 1 ≤ cycleCount mn mode s ∧ cycleCount mn mode s ≤ 6 := by
  -- Only the branches and the index adds have no number of their own: an add costs one row more at the most.
  have hcross := fun low idx => Bool.toNat_le (indexCarry low idx)
  unfold cycleCount
  dsimp only
  split
  all_goals grind

/-- Settles O20: the bounds of the table and the count of the run, class by class. -/
theorem microCycleCounts : Obligations.MicroCycleCounts := by
  intro i mn mode s hi h
  rw [exec_of_m65 hi]
  exact ⟨cycleCount_bounds mn mode s, runInstr65_count hi h⟩

/-! ## Branches (R179, R280 to R287) -/

/-- The signed target, over integers. -/
theorem branchTarget_eq_ofInt (after : Word) (offset : Byte) :
    branchTarget after offset = BitVec.ofInt 16 (after.toInt + offset.toInt) := by
  rw [BitVec.ofInt_add, BitVec.ofInt_toInt]
  rfl

/-- Two addresses lie in the same page. -/
theorem hiByte_eq_iff (a b : Word) : hiByte a = hiByte b ↔ a.toNat / 256 = b.toNat / 256 := by
  have ha := a.isLt
  have hb := b.isLt
  rw [← BitVec.toNat_inj]
  simp only [hiByte, BitVec.extractLsb'_toNat, Nat.shiftRight_eq_div_pow]
  omega

/-- A branch whose condition is `taken`. -/
theorem branch_runsTo {i : Instr} {mn : Mn} {s : State} (hi : i.m65 = some (mn, .rel)) (hc : mn.cls .rel = .br)
    (h : s.fetched65) {taken : Bool} (htaken : branchCond mn s.m65.p = taken) :
    let after := s.m65.pc + 1
    let target := BitVec.ofInt 16 (after.toInt + (s.peekW s.m65.pc).toInt)
    RunsTo65 i s (if taken = false then 1 else if target.toNat / 256 = after.toNat / 256 then 2 else 3)
      { s.m65 with pc := if taken then target else after, t := 0 } := by
  obtain ⟨t, hr, hvis, honly, hlen⟩ := runInstr65_branch mn s h hc
  refine ⟨t, (exec_of_m65 hi s).trans hr, ?_, honly, ?_⟩
  · rw [hvis, htaken, branchTarget_eq_ofInt]
    rfl
  · rw [hlen]
    simp only [cycleCount, hc, htaken, branchTarget_eq_ofInt, hiByte_eq_iff]
    cases taken <;> rfl

/-- Settles O13: the eight rows of the table. -/
theorem branchesGoToTheSignedTarget : Obligations.BranchesGoToTheSignedTarget := by
  intro i op taken s h p hmem
  simp only [List.mem_cons, List.not_mem_nil, or_false, Prod.mk.injEq] at hmem
  obtain ⟨rfl, rfl, rfl⟩ | ⟨rfl, rfl, rfl⟩ | ⟨rfl, rfl, rfl⟩ | ⟨rfl, rfl, rfl⟩ | ⟨rfl, rfl, rfl⟩ | ⟨rfl, rfl, rfl⟩ |
    ⟨rfl, rfl, rfl⟩ | ⟨rfl, rfl, rfl⟩ := hmem
  all_goals exact ⟨rfl, branch_runsTo rfl rfl h rfl⟩

end Sys2Proof.Machine
end

section
/-! PROOF. One tick of the 6502 engine is one bus operation (40_m65_engine.md R160, R165), and an instruction is the run of its
ticks (R163, R164). The exact count comes from the two together: N bus operations, one a tick. -/

namespace Sys2Proof.Machine

/-! ## Every row is one bus operation (R160, R165) -/

/-- What a sequence answers: no row, a row that reads, or a row that writes. -/
inductive BusRow (s : State) : Option State → Prop
  | none : BusRow s none
  | read (a : Word) (f : Byte → Cpu65 → Cpu65) : BusRow s (some (s.readRow a f))
  | write (a : Word) (v : Byte) (f : Cpu65 → Cpu65) : BusRow s (some (s.writeRow a v f))

theorem accessRow_busRow (mn : Mn) (cls : Cls) (j : Nat) (s : State) : BusRow s (accessRow mn cls j s) := by
  unfold accessRow
  split <;> constructor

theorem indexedTail_busRow (mn : Mn) (cls : Cls) (j : Nat) (s : State) : BusRow s (indexedTail mn cls j s) := by
  unfold indexedTail
  split
  · split
    · exact .read _ _
    · exact accessRow_busRow mn .r 0 s
  · exact .read _ _
  · exact accessRow_busRow mn cls _ s

theorem zpCycle_busRow (mn : Mn) (cls : Cls) (s : State) : BusRow s (zpCycle mn cls s) := by
  unfold zpCycle
  split
  · exact .none
  · exact .read _ _
  · exact accessRow_busRow mn cls _ s

theorem zpIndexedCycle_busRow (mn : Mn) (cls : Cls) (idx : Cpu65 → Byte) (s : State) :
    BusRow s (zpIndexedCycle mn cls idx s) := by
  unfold zpIndexedCycle
  split
  · exact .none
  · exact .read _ _
  · exact .read _ _
  · exact accessRow_busRow mn cls _ s

theorem absCycle_busRow (mn : Mn) (cls : Cls) (s : State) : BusRow s (absCycle mn cls s) := by
  unfold absCycle
  split
  · exact .none
  · exact .read _ _
  · exact .read _ _
  · exact accessRow_busRow mn cls _ s

theorem absIndexedCycle_busRow (mn : Mn) (cls : Cls) (idx : Cpu65 → Byte) (s : State) :
    BusRow s (absIndexedCycle mn cls idx s) := by
  unfold absIndexedCycle
  split
  · exact .none
  · exact .read _ _
  · exact .read _ _
  · exact indexedTail_busRow mn cls _ s

theorem izxCycle_busRow (mn : Mn) (cls : Cls) (s : State) : BusRow s (izxCycle mn cls s) := by
  unfold izxCycle
  split
  · exact .none
  · exact .read _ _
  · exact .read _ _
  · exact .read _ _
  · exact .read _ _
  · exact accessRow_busRow mn cls _ s

theorem izyCycle_busRow (mn : Mn) (cls : Cls) (s : State) : BusRow s (izyCycle mn cls s) := by
  unfold izyCycle
  split
  · exact .none
  · exact .read _ _
  · exact .read _ _
  · exact .read _ _
  · exact indexedTail_busRow mn cls _ s

theorem memoryCycle_busRow (mn : Mn) (cls : Cls) (mode : Mode) (s : State) :
    BusRow s (memoryCycle mn cls mode s) := by
  cases mode
  case imm => simp only [memoryCycle, immCycle]; split <;> constructor
  case zp => exact zpCycle_busRow mn cls s
  case zpx | zpy => exact zpIndexedCycle_busRow mn cls _ s
  case abs => exact absCycle_busRow mn cls s
  case abx | aby => exact absIndexedCycle_busRow mn cls _ s
  case izx => exact izxCycle_busRow mn cls s
  case izy => exact izyCycle_busRow mn cls s
  case imp | acc | rel | ind => exact .none

theorem specialCycle_busRow (mn : Mn) (mode : Mode) (s : State) : BusRow s (specialCycle mn mode s) := by
  cases mn
  case brk => simp only [specialCycle, trapEntryCycle]; split <;> constructor
  case rti => simp only [specialCycle, trapReturnCycle]; split <;> constructor
  case rts => simp only [specialCycle, rtsCycle]; split <;> constructor
  case jsr => simp only [specialCycle, jsrCycle]; split <;> constructor
  case jmp =>
    simp only [specialCycle]
    split
    · unfold jmpIndCycle; split <;> constructor
    · unfold jmpAbsCycle; split <;> constructor
  case pha | php => simp only [specialCycle, pushCycle]; split <;> constructor
  case pla | plp => simp only [specialCycle, pullCycle]; split <;> constructor
  all_goals exact .none

theorem microCycle_busRow (mn : Mn) (mode : Mode) (s : State) : BusRow s (microCycle mn mode s) := by
  unfold microCycle
  split
  · unfold impCycle; split <;> constructor
  · unfold accCycle; split <;> constructor
  · unfold relCycle; split <;> constructor
  · exact specialCycle_busRow mn mode s
  all_goals exact memoryCycle_busRow mn _ mode s

/-- From `s` to `t` one bus operation was made, at a 16-bit address and without a fault. -/
def OneBusOp (s t : State) : Prop :=
  ∃ addr data, addr < 65536 ∧
    (t.busTrace = s.busTrace ++ [.read addr data false] ∨ t.busTrace = s.busTrace ++ [.write addr data false])

theorem OneBusOp.length {s t : State} (h : OneBusOp s t) : t.busTrace.length = s.busTrace.length + 1 := by
  obtain ⟨addr, data, -, h | h⟩ := h <;> simp [h]

theorem BusRow.oneBusOp {s t : State} (h65 : s.cfg.arch.is65 = true) (h : BusRow s (some t)) : OneBusOp s t := by
  cases h with
  | read a f => exact ⟨a.toNat, _, a.isLt, .inl (readRow_spec h65 a f).2.2⟩
  | write a v f => exact ⟨a.toNat, v, a.isLt, .inr (writeRow_spec h65 a v f).2.2.2⟩

/-! ## One tick (R160, R191) -/

/-- An instruction of the 6502 family in flight, at a row of its sequence. -/
structure InFlight (mn : Mn) (mode : Mode) (s : State) : Prop where
  is65 : s.cfg.arch.is65 = true
  latched : s.latched mn mode
  t_ne : s.m65.t ≠ 0
  t_le : s.m65.t.toNat ≤ maxCycles mn mode

theorem InFlight.one_le {mn : Mn} {mode : Mode} {s : State} (h : InFlight mn mode s) : 1 ≤ s.m65.t.toNat :=
  Nat.one_le_iff_ne_zero.mpr fun h0 => h.t_ne (BitVec.eq_of_toNat_eq h0)

theorem inFlightLegal_of_inFlight {mn : Mn} {mode : Mode} {s : State} (h : InFlight mn mode s) :
    s.inFlightLegal = true := by
  obtain ⟨i, hd, hm⟩ := h.latched
  exact (inFlightLegal_iff s).mpr (.inr ⟨i, mn, mode, hd, hm, h.t_le⟩)

/-- A legal state is between instructions or in flight. -/
theorem inFlight_of_inFlightLegal {s : State} (h65 : s.cfg.arch.is65 = true) (h : s.inFlightLegal = true)
    (hT : s.m65.t ≠ 0) : ∃ mn mode, InFlight mn mode s := by
  obtain h0 | ⟨i, mn, mode, hd, hm, hle⟩ := (inFlightLegal_iff s).mp h
  · exact absurd h0 hT
  · exact ⟨mn, mode, h65, ⟨i, hd, hm⟩, hT, hle⟩

theorem tick65_row {mn : Mn} {mode : Mode} {s t : State} (hl : s.latched mn mode) (hT : s.m65.t ≠ 0)
    (hc : microCycle mn mode s = some t) : tick65 s = .next t := by
  obtain ⟨i, hd, hm⟩ := hl
  simp only [tick65, if_neg hT, State.midCycle65, hd, hm, hc]

/-- After a row the instruction is over, or it stands at the next row; `T` does not wrap, since no sequence is that long. -/
theorem RowStep.over_or_inFlight {mn : Mn} {mode : Mode} {s t : State} (h : RowStep (maxCycles mn mode) s t)
    (hs : InFlight mn mode s) : t.m65.t = 0 ∨ InFlight mn mode t ∧ t.m65.t.toNat = s.m65.t.toNat + 1 := by
  have hcfg : t.cfg = s.cfg := (h.keeps hs.is65 hs.latched).cfg
  have hsix := maxCycles_le_six mn mode
  refine h.advances.2.imp_right fun ⟨ht, hlt⟩ => ?_
  have hnext : t.m65.t.toNat = s.m65.t.toNat + 1 := by
    rw [ht, BitVec.toNat_add]
    exact Nat.mod_eq_of_lt (by simp; omega)
  exact ⟨⟨by rw [hcfg]; exact hs.is65, h.latched hs.latched, fun h0 => by simp [h0] at hnext, by omega⟩, hnext⟩

/-- The row of an instruction in flight is the tick: one bus operation, and the instruction is over or at its next row. -/
theorem InFlight.row {mn : Mn} {mode : Mode} {s : State} (h : InFlight mn mode s) :
    ∃ t, microCycle mn mode s = some t ∧ tick65 s = .next t ∧ OneBusOp s t ∧
      (t.m65.t = 0 ∨ InFlight mn mode t ∧ t.m65.t.toNat = s.m65.t.toNat + 1) := by
  obtain ⟨i, hd, hm⟩ := h.latched
  have hrow := microCycle_row hm s
  have hbus := microCycle_busRow mn mode s
  cases hc : microCycle mn mode s with
  | none =>
    rw [hc] at hrow
    have hnone : s.m65.t.toNat = 0 ∨ maxCycles mn mode < s.m65.t.toNat := hrow
    have hpos := h.one_le
    have hle := h.t_le
    omega
  | some t =>
    rw [hc] at hrow hbus
    exact ⟨t, rfl, tick65_row h.latched h.t_ne hc, hbus.oneBusOp h.is65, RowStep.over_or_inFlight hrow h⟩

/-- After the Fetch of a legal opcode the instruction stands at its first row. -/
theorem inFlight_fetch65 {s : State} {i : Instr} {mn : Mn} {mode : Mode} (h65 : s.cfg.arch.is65 = true)
    (hd : decode65 (s.peekW s.m65.pc) = .ok i) (hm : i.m65 = some (mn, mode)) :
    InFlight mn mode s.fetch65 ∧ s.fetch65.m65.t.toNat = 1 := by
  rw [fetch65_ok h65 hd]
  exact ⟨⟨h65, ⟨i, hd, hm⟩, (by decide : (1 : BitVec 3) ≠ 0), one_le_maxCycles mn mode⟩, rfl⟩

theorem fetch65_oneBusOp {s : State} (h65 : s.cfg.arch.is65 = true) : OneBusOp s s.fetch65 := by
  refine ⟨s.m65.pc.toNat, s.peekW s.m65.pc, s.m65.pc.isLt, .inl ?_⟩
  cases hd : decode65 (s.peekW s.m65.pc) with
  | ok i => rw [fetch65_ok h65 hd]
  | error e => rw [fetch65_error h65 hd]; rfl

theorem fetch65_error_t {s : State} {e : DecodeError} (h65 : s.cfg.arch.is65 = true)
    (hd : decode65 (s.peekW s.m65.pc) = .error e) : s.fetch65.m65.t = s.m65.t := by
  rw [fetch65_error h65 hd]
  rfl

/-- One tick from a legal state: one bus operation, and the instruction is over or in flight. -/
theorem tick65_spec {s : State} (h65 : s.cfg.arch.is65 = true) (h : s.inFlightLegal = true) :
    ∃ t, tick65 s = .next t ∧ OneBusOp s t ∧ (t.m65.t = 0 ∨ ∃ mn mode, InFlight mn mode t) := by
  by_cases h0 : s.m65.t = 0
  · refine ⟨s.fetch65, tick65_fetch h0, fetch65_oneBusOp h65, ?_⟩
    cases hd : decode65 (s.peekW s.m65.pc) with
    | ok i =>
      obtain ⟨mn, mode, hm⟩ := m65_of_decode65 hd
      exact .inr ⟨mn, mode, (inFlight_fetch65 h65 hd hm).1⟩
    | error e => exact .inl ((fetch65_error_t h65 hd).trans h0)
  · obtain ⟨mn, mode, hs⟩ := inFlight_of_inFlightLegal h65 h h0
    obtain ⟨t, -, ht, hbus, hnext⟩ := hs.row
    exact ⟨t, ht, hbus, hnext.imp_right fun hn => ⟨mn, mode, hn.1⟩⟩

/-- A pending `tick` or `loggedStep` is the tick of the engine, whatever its budget (R79). -/
theorem step_tick65 {s : State} {o : HostOp} {steps : Nat} (h65 : s.cfg.arch.is65 = true) (rest : List HostOp)
    (ho : o = .tick steps ∨ o = .loggedStep steps) :
    step { s with hostQueue := o :: rest } = tick65 { s with hostQueue := rest } := by
  rw [step_hostOp rfl]
  obtain rfl | rfl := ho <;> simp [runHostOp, State.tick, h65]

/-- Settles O23: what one tick leaves, and that a pending operation of the host is that tick. -/
theorem tickIsOneBusOperation : Obligations.TickIsOneBusOperation := by
  intro s h65 h
  obtain ⟨t, ht, hbus, hnext⟩ := tick65_spec h65 h
  have hlegal : t.inFlightLegal = true ∧ t.m65.t.toNat ≤ 6 := by
    obtain h0 | ⟨mn, mode, hn⟩ := hnext
    · exact ⟨(inFlightLegal_iff t).mpr (.inl h0), by simp [h0]⟩
    · exact ⟨inFlightLegal_of_inFlight hn, hn.t_le.trans (maxCycles_le_six mn mode)⟩
  exact ⟨t, ht, hlegal.1, hlegal.2, hbus, fun steps rest =>
    ⟨step_tick65 h65 rest (.inl rfl), step_tick65 h65 rest (.inr rfl)⟩⟩

/-! ## The run of the ticks of one instruction (R163, R164, R480) -/

/-- `n` ticks lead from `s` to the end of the instruction in `t`, and `T` is 0 at none before. -/
structure FinishesIn (n : Nat) (s t : State) : Prop where
  pos : 1 ≤ n
  run : ticks65 n s = .next t
  ends : t.m65.t = 0
  between : ∀ k, 0 < k → k < n → ∃ u, ticks65 k s = .next u ∧ u.m65.t ≠ 0

theorem ticks65_succ {s u : State} (h : tick65 s = .next u) (k : Nat) : ticks65 (k + 1) s = ticks65 k u := by
  simp only [ticks65, h]

theorem finishesIn_one {s t : State} (h : tick65 s = .next t) (h0 : t.m65.t = 0) : FinishesIn 1 s t :=
  ⟨Nat.le_refl 1, ticks65_succ h 0, h0, fun k hk hk1 => by omega⟩

theorem FinishesIn.cons {n : Nat} {s u t : State} (h : tick65 s = .next u) (hu : u.m65.t ≠ 0)
    (hf : FinishesIn n u t) : FinishesIn (n + 1) s t where
  pos := Nat.le_add_left 1 n
  run := (ticks65_succ h n).trans hf.run
  ends := hf.ends
  between k hk hkn := by
    obtain ⟨j, rfl⟩ : ∃ j, k = j + 1 := ⟨k - 1, by omega⟩
    rw [ticks65_succ h]
    cases j with
    | zero => exact ⟨u, rfl, hu⟩
    | succ j => exact hf.between (j + 1) (by omega) (by omega)

/-- The rows that are left, run at once or tick by tick, and one bus operation each. -/
theorem InFlight.finishes {mn : Mn} {mode : Mode} {fuel : Nat} {s : State} (h : InFlight mn mode s)
    (hfuel : maxCycles mn mode < s.m65.t.toNat + fuel) :
    ∃ n t, n ≤ fuel ∧ FinishesIn n s t ∧ runCycles mn mode fuel s = .next t ∧
      t.busTrace.length = s.busTrace.length + n := by
  induction fuel generalizing s with
  | zero => exact absurd h.t_le (by omega)
  | succ fuel ih =>
    obtain ⟨u, hrow, htick, hbus, h0 | ⟨hu, hT⟩⟩ := h.row
    · exact ⟨1, u, Nat.le_add_left 1 fuel, finishesIn_one htick h0, runCycles_finish fuel hrow h0, hbus.length⟩
    · obtain ⟨n, t, hn, hf, hr, hlen⟩ := ih hu (by omega)
      exact ⟨n + 1, t, by omega, hf.cons htick hu.t_ne, (runCycles_next fuel hrow hu.t_ne).trans hr,
        by rw [hlen, hbus.length]; omega⟩

/-- The whole rest of an instruction is the run of the ticks that are left, at most 6. -/
theorem InFlight.runInstr65_eq {mn : Mn} {mode : Mode} {s : State} (h : InFlight mn mode s) :
    ∃ n t, n ≤ 6 ∧ FinishesIn n s t ∧ runInstr65 mn mode s = .next t ∧
      t.busTrace.length = s.busTrace.length + n := by
  have hsix := maxCycles_le_six mn mode
  have hpos := h.one_le
  exact h.finishes (by omega)

/-- From the Fetch of a legal opcode: N + 1 ticks, since the rows after Fetch make N bus operations, one each. -/
theorem finishesIn_fetch65 {s : State} {i : Instr} {mn : Mn} {mode : Mode} (h65 : s.cfg.arch.is65 = true)
    (h0 : s.m65.t = 0) (hd : decode65 (s.peekW s.m65.pc) = .ok i) (hm : i.m65 = some (mn, mode)) :
    ∃ t, FinishesIn (cycleCount mn mode s.fetch65 + 1) s t ∧ runToReady65 s = .next t := by
  obtain ⟨hin, hone⟩ := inFlight_fetch65 h65 hd hm
  obtain ⟨n, t, -, hf, hr, hlen⟩ := hin.runInstr65_eq
  obtain ⟨t', hr', -, hlen'⟩ := runInstr65_count hm ⟨hin.is65, BitVec.eq_of_toNat_eq hone⟩
  obtain rfl : t' = t := by simpa [hr'] using hr
  obtain rfl : n = cycleCount mn mode s.fetch65 := by omega
  exact ⟨t', hf.cons (tick65_fetch h0) hin.t_ne,
    by rw [runToReady65_fetch h65 h0 hd, exec_of_m65 hm, hr']⟩

/-- From any legal state the ticks that are left, Fetch included at most 7, lead where the run to `READY` leads. -/
theorem finishesIn_of_inFlightLegal {s : State} (h65 : s.cfg.arch.is65 = true) (h : s.inFlightLegal = true) :
    ∃ n t, n ≤ 7 ∧ FinishesIn n s t ∧ runToReady65 s = .next t := by
  by_cases h0 : s.m65.t = 0
  · cases hd : decode65 (s.peekW s.m65.pc) with
    | ok i =>
      obtain ⟨mn, mode, hm⟩ := m65_of_decode65 hd
      obtain ⟨t, hf, hr⟩ := finishesIn_fetch65 h65 h0 hd hm
      exact ⟨_, t, Nat.succ_le_succ (cycleCount_bounds mn mode _).2, hf, hr⟩
    | error e =>
      exact ⟨1, s.fetch65, by decide, finishesIn_one (tick65_fetch h0) ((fetch65_error_t h65 hd).trans h0),
        by simp [runToReady65, h0, readVal65 h65, hd]⟩
  · obtain ⟨mn, mode, hs⟩ := inFlight_of_inFlightLegal h65 h h0
    obtain ⟨i, hd, hm⟩ := hs.latched
    obtain ⟨n, t, hn, hf, hr, -⟩ := hs.runInstr65_eq
    exact ⟨n, t, by omega, hf, by rw [runToReady65_inFlight h0 hd, exec_of_m65 hm, hr]⟩

/-- Settles O24: the ticks from the Fetch, and those left from any legal state. -/
theorem instructionIsItsTicks : Obligations.InstructionIsItsTicks := by
  refine ⟨fun s i mn mode h65 h0 hd hm => ?_, fun s h65 h => ?_⟩
  · obtain ⟨t, hf, hr⟩ := finishesIn_fetch65 h65 h0 hd hm
    exact ⟨hf.run.trans hr.symm, hf.between⟩
  · obtain ⟨n, t, hn, hf, hr⟩ := finishesIn_of_inFlightLegal h65 h
    exact ⟨n, t, hf.pos, hn, hf.run, hr, hf.ends, hf.between⟩

end Sys2Proof.Machine
end

section
/-! PROOF. The loads, stores and transfers of the 6502 family (41_m65_load_store_transfer.md R220 to R231). The run of each class
is stated once, for every row of the table; an instruction is then its operation hook (40_m65_engine.md R190). -/

namespace Sys2Proof.Machine

-- The theorems one after the other: elaborated at once they ask for a thread each.
set_option Elab.async false

/-- The model takes `N` from the most significant bit, the statements from bit 7 (00_scope.md R10). -/
theorem Flags.setNZ_eq_withZN (p : Flags) (v : Byte) : p.setNZ v = p.withZN v := by
  simp [Flags.setNZ, Flags.withZN, BitVec.msb_eq_getLsbD_last]

/-! ## The rows of the table (R125) -/

/-- Every row names an instruction of the mnemonic, with its mode and its opcode. -/
def areRowsOf (mn : Mn) (rows : List (Instr × Mode × Byte)) : Bool :=
  rows.all fun r => decide (r.1.m65 = some (mn, r.2.1)) && decide (encode65 r.1 = some r.2.2)

theorem row_of_mem {mn : Mn} {rows : List (Instr × Mode × Byte)} (hrows : areRowsOf mn rows = true) {i : Instr}
    {mode : Mode} {op : Byte} (hmem : (i, mode, op) ∈ rows) : i.m65 = some (mn, mode) ∧ encode65 i = some op := by
  simpa using List.all_eq_true.mp hrows _ hmem

/-! ## One run for each class -/

section
variable {i : Instr} {mn : Mn} {mode : Mode} {s : State} {a : Word} {c : Cpu65}

/-- Class R: the hook `read_op` makes the registers `c` out of the operand byte. -/
theorem read_runsTo (hi : i.m65 = some (mn, mode)) (hc : mn.cls mode = .r) (h : s.fetched65)
    (ha : s.effectiveAddr mode = some a)
    (hop : (readOp mn (s.peekW a) { s.m65 with pc := s.afterOperand mode }).finish = c) :
    RunsTo65 i s (cycleCount mn mode s) c := by
  obtain ⟨t, hr, hvis, honly, hlen⟩ := runInstr65_read mn mode s h hc a ha
  exact ⟨t, (exec_of_m65 hi s).trans hr, hop ▸ hvis, honly, hlen⟩

/-- Class W: the byte `v` that `write_val` names is stored, and `PC` alone moves. -/
theorem write_storesTo (hi : i.m65 = some (mn, mode)) (hc : mn.cls mode = .w) (h : s.fetched65)
    (ha : s.effectiveAddr mode = some a) {v : Byte} (hv : writeVal mn s.m65 = v) :
    StoresTo65 i s (cycleCount mn mode s) { s.m65 with pc := s.afterOperand mode, t := 0 } a v := by
  have himm : mode ≠ .imm := by
    have hmode := mem_classModes_of_m65 hi
    rw [hc] at hmode
    rintro rfl
    exact absurd hmode (by decide)
  obtain ⟨t, hr, hvis, honly, hst, hlen⟩ := runInstr65_write mn mode s h hc himm a ha
  exact ⟨t, (exec_of_m65 hi s).trans hr, hvis, honly, hv ▸ hst, hlen⟩

/-- Class IMP: the hook `imp_op` makes the registers `c` in one row. -/
theorem imp_runsTo (hi : i.m65 = some (mn, .imp)) (hc : mn.cls .imp = .imp) (h : s.fetched65)
    (hop : (impOp mn s.m65).finish = c) : RunsTo65 i s 1 c := by
  obtain ⟨t, hr, hregs, honly, hlen⟩ := runInstr65_imp mn s h hc
  exact ⟨t, (exec_of_m65 hi s).trans hr, by rw [hregs, hop], honly, hlen⟩

end

/-! ## Loads, stores and transfers -/

/-- Settles O1: the rows of `LDA`, `LDX` and `LDY` are class R, and the hook of each sets its register, `Z` and `N`. -/
theorem loadsReplaceRegister : Obligations.LoadsReplaceRegister := by
  intro i mode op s a h ha
  refine ⟨fun hmem => ?lda, fun hmem => ?ldx, fun hmem => ?ldy⟩
  case lda =>
    obtain ⟨hi, henc⟩ := row_of_mem (mn := .lda) (by decide) hmem
    exact ⟨henc, read_runsTo hi rfl h ha (by simp only [readOp, Cpu65.finish, Flags.setNZ_eq_withZN])⟩
  case ldx =>
    obtain ⟨hi, henc⟩ := row_of_mem (mn := .ldx) (by decide) hmem
    exact ⟨henc, read_runsTo hi rfl h ha (by simp only [readOp, Cpu65.finish, Flags.setNZ_eq_withZN])⟩
  case ldy =>
    obtain ⟨hi, henc⟩ := row_of_mem (mn := .ldy) (by decide) hmem
    exact ⟨henc, read_runsTo hi rfl h ha (by simp only [readOp, Cpu65.finish, Flags.setNZ_eq_withZN])⟩

/-- Settles O7: the rows of `STA`, `STX` and `STY` are class W, and the byte stored is the register each names. -/
theorem storesWriteOneByte : Obligations.StoresWriteOneByte := by
  intro i mode op s a h ha
  refine ⟨fun hmem => ?sta, fun hmem => ?stx, fun hmem => ?sty⟩
  case sta =>
    obtain ⟨hi, henc⟩ := row_of_mem (mn := .sta) (by decide) hmem
    exact ⟨henc, write_storesTo hi rfl h ha rfl⟩
  case stx =>
    obtain ⟨hi, henc⟩ := row_of_mem (mn := .stx) (by decide) hmem
    exact ⟨henc, write_storesTo hi rfl h ha rfl⟩
  case sty =>
    obtain ⟨hi, henc⟩ := row_of_mem (mn := .sty) (by decide) hmem
    exact ⟨henc, write_storesTo hi rfl h ha rfl⟩

/-- Settles O10: the six transfers are class IMP, and the hook of each is the change of registers its row states; `TXS`
alone has no `setNZ`. -/
theorem transfersCopyRegister : Obligations.TransfersCopyRegister := by
  intro i op s c' h c hmem
  simp only [List.mem_cons, List.not_mem_nil, or_false, Prod.mk.injEq] at hmem
  obtain ⟨rfl, rfl, rfl⟩ | ⟨rfl, rfl, rfl⟩ | ⟨rfl, rfl, rfl⟩ | ⟨rfl, rfl, rfl⟩ | ⟨rfl, rfl, rfl⟩ | ⟨rfl, rfl, rfl⟩ := hmem
  all_goals exact ⟨rfl, imp_runsTo rfl rfl h (by simp only [impOp, Cpu65.finish, Flags.setNZ_eq_withZN, c])⟩

end Sys2Proof.Machine
end

section
/-! PROOF. Arithmetic, logic, compares, increments and shifts of the 6502 family (42_m65_alu.md R240 to R260). First what
each hook computes, said over numbers; then the classes M and ACC as one run each; then the statements, on the rows of R125. -/

namespace Sys2Proof.Machine

-- The theorems one after the other: elaborated at once they ask for a thread each.
set_option Elab.async false

/-! ## The adder (R241, R243) -/

/-- The flags of the adder, from bit 7. -/
theorem Flags.afterAdc_eq (p : Flags) (a m : Byte) :
    p.afterAdc a m =
      { p with
        c := decide (256 ≤ adcSum a m p.c)
        v := ((a ^^^ adcResult a m p.c) &&& (m ^^^ adcResult a m p.c)).getLsbD 7
        z := decide (adcResult a m p.c = 0)
        n := (adcResult a m p.c).getLsbD 7 } := by
  simp [Flags.afterAdc, Flags.setNZ, BitVec.msb_eq_getLsbD_last]

/-- The overflow bit of the adder: both operands have a sign other than the result's, exactly when the signed sum does
not fit a byte. -/
theorem adc_overflow (a m : Byte) (carry : Bool) :
    ((a ^^^ adcResult a m carry) &&& (m ^^^ adcResult a m carry)).getLsbD 7 =
      decide (a.toInt + m.toInt + carry.toNat < -128 ∨ 127 < a.toInt + m.toInt + carry.toNat) := by
  have hcarry := Bool.toNat_le carry
  have ha := a.isLt
  have hm := m.isLt
  -- A sign is a comparison with 128, of the operands and of the sum mod 256.
  have hsign : ∀ b : Byte, b.getLsbD 7 = decide (128 ≤ b.toNat) := fun b => by
    rw [← BitVec.msb_eq_decide b, BitVec.msb_eq_getLsbD_last]
  have hr : (adcResult a m carry).toNat = (a.toNat + m.toNat + carry.toNat) % 256 := BitVec.toNat_ofNat ..
  rw [BitVec.getLsbD_and, BitVec.getLsbD_xor, BitVec.getLsbD_xor, hsign a, hsign m, hsign (adcResult a m carry), hr,
    BitVec.toInt_eq_toNat_cond, BitVec.toInt_eq_toNat_cond, Bool.eq_iff_iff]
  -- With the two signs known, both sides are linear in the three summands.
  by_cases h1 : 128 ≤ a.toNat <;> by_cases h2 : 128 ≤ m.toNat <;> simp [h1, h2] <;> omega

/-! ### `SBC` is the adder on the complement of the operand -/

/-- The sum with the complement is the difference, 256 higher. -/
theorem adcSum_not (a m : Byte) (carry : Bool) :
    (adcSum a (~~~m) carry : Int) = (a.toNat - m.toNat - (1 - carry.toNat) : Int) + 256 := by
  have hm := m.isLt
  have hnot : (~~~m).toNat = 255 - m.toNat := BitVec.toNat_not
  simp only [adcSum, hnot]
  omega

/-- No borrow is a carry out of the adder. -/
theorem carry_adcSum_not (a m : Byte) (carry : Bool) :
    256 ≤ adcSum a (~~~m) carry ↔ (0 : Int) ≤ a.toNat - m.toNat - (1 - carry.toNat) := by
  have hsum := adcSum_not a m carry
  omega

theorem adcResult_not (a m : Byte) (carry : Bool) :
    adcResult a (~~~m) carry = BitVec.ofInt 8 (a.toNat - m.toNat - (1 - carry.toNat)) := by
  rw [adcResult, ← BitVec.ofInt_natCast, adcSum_not, BitVec.ofInt_add]
  exact BitVec.add_zero _

/-- The signed sum with the complement is the signed difference. -/
theorem signed_not (a m : Byte) (carry : Bool) :
    a.toInt + (~~~m).toInt + carry.toNat = a.toInt - m.toInt - (1 - carry.toNat : Int) := by
  have hm := m.isLt
  have hnot : (~~~m).toNat = 255 - m.toNat := BitVec.toNat_not
  rw [BitVec.toInt_eq_toNat_cond m, BitVec.toInt_eq_toNat_cond (~~~m), hnot]
  split <;> split <;> omega

/-- The flags of `SBC`, over the integers. -/
theorem Flags.afterAdc_not (p : Flags) (a m : Byte) :
    p.afterAdc a (~~~m) =
      let borrow : Int := 1 - p.c.toNat
      let diff : Int := a.toNat - m.toNat - borrow
      let signed : Int := a.toInt - m.toInt - borrow
      { p with
        c := decide (0 ≤ diff)
        v := decide (signed < -128 ∨ 127 < signed)
        z := decide (BitVec.ofInt 8 diff = 0)
        n := (BitVec.ofInt 8 diff).getLsbD 7 } := by
  rw [Flags.afterAdc_eq, adc_overflow, signed_not, adcResult_not]
  simp only [carry_adcSum_not]

/-! ## Compares (R247 to R249) -/

/-- `Z` and `N` of a compare are those of the difference. -/
theorem Flags.afterCompare_eq (p : Flags) (a m : Byte) :
    p.afterCompare a m = { p.withZN (a - m) with c := decide (m.toNat ≤ a.toNat) } :=
  Flags.setNZ_eq_withZN _ (a - m)

/-! ## Shifts and rotates (R257 to R260) -/

/-- The flags after a shift: `C` the bit shifted out, `Z` and `N` from the result. -/
def Flags.afterShift (p : Flags) (out : Bool) (r : Byte) : Flags :=
  { p with c := out, z := decide (r = 0), n := r.getLsbD 7 }

theorem Flags.setNZ_eq_afterShift (p : Flags) (out : Bool) (r : Byte) :
    Flags.setNZ { p with c := out } r = p.afterShift out r := Flags.setNZ_eq_withZN _ r

theorem flagByte_toNat (b : Bool) : (flagByte b).toNat = b.toNat := by cases b <;> rfl

/-- The bit vacated by a left shift takes the carry. -/
theorem shiftLeft_one_or (m : Byte) (carry : Bool) :
    m <<< 1 ||| flagByte carry = BitVec.ofNat 8 (2 * m.toNat + carry.toNat) := by
  have hcarry : carry.toNat < 2 ^ 1 := carry.toNat_lt
  have hshift : m.toNat <<< 1 % 2 ^ 8 = 2 ^ 1 * (m.toNat % 128) := by rw [Nat.shiftLeft_eq]; omega
  apply BitVec.eq_of_toNat_eq
  rw [BitVec.toNat_or, BitVec.toNat_shiftLeft, hshift, flagByte_toNat, ← Nat.two_pow_add_eq_or_of_lt hcarry,
    BitVec.toNat_ofNat]
  omega

/-- The bit vacated by a right shift takes the carry. -/
theorem shiftRight_one_or (m : Byte) (carry : Bool) :
    m >>> 1 ||| flagByte carry <<< 7 = BitVec.ofNat 8 (m.toNat / 2 + 128 * carry.toNat) := by
  have hcarry := carry.toNat_lt
  have hm : m.toNat / 2 < 2 ^ 7 := by have := m.isLt; omega
  have hshift : carry.toNat <<< 7 % 2 ^ 8 = 2 ^ 7 * carry.toNat := by rw [Nat.shiftLeft_eq]; omega
  apply BitVec.eq_of_toNat_eq
  rw [BitVec.toNat_or, BitVec.toNat_ushiftRight, Nat.shiftRight_one, BitVec.toNat_shiftLeft, flagByte_toNat, hshift,
    Nat.or_comm, ← Nat.two_pow_add_eq_or_of_lt hm, BitVec.toNat_ofNat]
  omega

theorem modifyOp_asl (p : Flags) (m : Byte) :
    modifyOp .asl p m = (BitVec.ofNat 8 (2 * m.toNat), p.afterShift (m.getLsbD 7) (BitVec.ofNat 8 (2 * m.toNat))) := by
  have hr : m <<< 1 = BitVec.ofNat 8 (2 * m.toNat) := by simpa [flagByte] using shiftLeft_one_or m false
  simp only [modifyOp, aslOp, Flags.setNZ_eq_afterShift, hr]

theorem modifyOp_lsr (p : Flags) (m : Byte) :
    modifyOp .lsr p m = (BitVec.ofNat 8 (m.toNat / 2), p.afterShift (m.getLsbD 0) (BitVec.ofNat 8 (m.toNat / 2))) := by
  have hr : m >>> 1 = BitVec.ofNat 8 (m.toNat / 2) := by simpa [flagByte] using shiftRight_one_or m false
  simp only [modifyOp, lsrOp, Flags.setNZ_eq_afterShift, hr]

theorem modifyOp_rol (p : Flags) (m : Byte) :
    modifyOp .rol p m =
      (BitVec.ofNat 8 (2 * m.toNat + p.c.toNat),
        p.afterShift (m.getLsbD 7) (BitVec.ofNat 8 (2 * m.toNat + p.c.toNat))) := by
  simp only [modifyOp, rolOp, Flags.setNZ_eq_afterShift, shiftLeft_one_or]

theorem modifyOp_ror (p : Flags) (m : Byte) :
    modifyOp .ror p m =
      (BitVec.ofNat 8 (m.toNat / 2 + 128 * p.c.toNat),
        p.afterShift (m.getLsbD 0) (BitVec.ofNat 8 (m.toNat / 2 + 128 * p.c.toNat))) := by
  simp only [modifyOp, rorOp, Flags.setNZ_eq_afterShift, shiftRight_one_or]

/-- The mnemonics that work on the accumulator are class M in every other mode (R126). -/
theorem Mn.cls_of_acc {mn : Mn} {mode : Mode} (hacc : mn.cls .acc = .acc) (hne : mode ≠ .acc) : mn.cls mode = .m := by
  cases mn
  case asl | lsr | rol | ror =>
    cases mode
    case acc => exact absurd rfl hne
    all_goals rfl
  all_goals cases hacc

/-! ## One run for each of the classes M and ACC -/

section
variable {i : Instr} {mn : Mn} {mode : Mode} {s : State} {a : Word} {p : Flags} {v : Byte}

/-- Class M: the hook `modify_op` makes the byte `v` and the flags `p` out of the byte at the effective address. -/
theorem modify_storesTo (hi : i.m65 = some (mn, mode)) (hc : mn.cls mode = .m) (h : s.fetched65)
    (ha : s.effectiveAddr mode = some a) (hop : modifyOp mn s.m65.p (s.peekW a) = (v, p)) :
    StoresTo65 i s (cycleCount mn mode s) { s.m65 with p := p, pc := s.afterOperand mode, t := 0 } a v := by
  have hmode : mode ∈ classModes .m := hc ▸ mem_classModes_of_m65 hi
  obtain ⟨t, hr, hvis, honly, hst, hlen⟩ := runInstr65_modify mn mode s h hc (by simpa [classModes] using hmode) a ha
  rw [hop] at hvis hst
  exact ⟨t, (exec_of_m65 hi s).trans hr, hvis, honly, hst, hlen⟩

/-- Class ACC: the same hook, out of and into `A`. -/
theorem acc_runsTo (hi : i.m65 = some (mn, .acc)) (hc : mn.cls .acc = .acc) (h : s.fetched65)
    (hop : modifyOp mn s.m65.p s.m65.a = (v, p)) :
    RunsTo65 i s (cycleCount mn .acc s) { s.m65 with a := v, p := p, t := 0 } := by
  obtain ⟨t, hr, hregs, honly, hlen⟩ := runInstr65_acc mn s h hc
  have hcount : cycleCount mn .acc s = 1 := by simp only [cycleCount, hc]
  rw [hop] at hregs
  exact ⟨t, (exec_of_m65 hi s).trans hr, by rw [hregs]; rfl, honly, by rw [hlen, hcount]⟩

/-- A mnemonic that is class ACC on the accumulator and class M on memory: the hook makes the result and the flags out
of the operand in both. -/
theorem shift_runs (hi : i.m65 = some (mn, mode)) (hacc : mn.cls .acc = .acc) (h : s.fetched65)
    {r : Byte → Byte} {out : Byte → Bool}
    (hop : ∀ m, modifyOp mn s.m65.p m = (r m, s.m65.p.afterShift (out m) (r m))) :
    (mode = .acc → RunsTo65 i s (cycleCount mn mode s)
      { s.m65 with a := r s.m65.a, p := s.m65.p.afterShift (out s.m65.a) (r s.m65.a), t := 0 }) ∧
    ∀ a, s.effectiveAddr mode = some a → StoresTo65 i s (cycleCount mn mode s)
      { s.m65 with p := s.m65.p.afterShift (out (s.peekW a)) (r (s.peekW a)), pc := s.afterOperand mode, t := 0 }
      a (r (s.peekW a)) := by
  refine ⟨?acc, fun a ha => ?mem⟩
  case acc =>
    rintro rfl
    exact acc_runsTo hi hacc h (hop _)
  case mem =>
    have hne : mode ≠ .acc := by rintro rfl; cases ha
    exact modify_storesTo hi (Mn.cls_of_acc hacc hne) h ha (hop _)

end

/-! ## The statements -/

/-- Settles O2: the rows of `ADC` are class R, and the hook is the adder. -/
theorem addWithCarry : Obligations.AddWithCarry := by
  intro i mode op s a h ha hrow
  obtain ⟨hi, henc⟩ := row_of_mem (mn := .adc) (by decide) hrow
  refine ⟨henc, read_runsTo hi rfl h ha ?_⟩
  simp only [readOp, Cpu65.finish, Flags.afterAdc_eq]
  rfl

/-- Settles O3: the hook is the adder on the complement of the operand. -/
theorem subtractWithBorrow : Obligations.SubtractWithBorrow := by
  intro i mode op s a h ha hrow
  obtain ⟨hi, henc⟩ := row_of_mem (mn := .sbc) (by decide) hrow
  refine ⟨henc, read_runsTo hi rfl h ha ?_⟩
  simp only [readOp, Cpu65.finish, adcResult_not, Flags.afterAdc_not]

/-- Settles O4: three mnemonics of class R, each with `setNZ` of the byte it puts in `A`. -/
theorem logicCombinesAccumulator : Obligations.LogicCombinesAccumulator := by
  intro i mode op s a h ha
  refine ⟨fun hrow => ?and, fun hrow => ?ora, fun hrow => ?eor⟩
  case and =>
    obtain ⟨hi, henc⟩ := row_of_mem (mn := .and) (by decide) hrow
    exact ⟨henc, read_runsTo hi rfl h ha (by simp only [readOp, Cpu65.finish, Flags.setNZ_eq_withZN])⟩
  case ora =>
    obtain ⟨hi, henc⟩ := row_of_mem (mn := .ora) (by decide) hrow
    exact ⟨henc, read_runsTo hi rfl h ha (by simp only [readOp, Cpu65.finish, Flags.setNZ_eq_withZN])⟩
  case eor =>
    obtain ⟨hi, henc⟩ := row_of_mem (mn := .eor) (by decide) hrow
    exact ⟨henc, read_runsTo hi rfl h ha (by simp only [readOp, Cpu65.finish, Flags.setNZ_eq_withZN])⟩

/-- Settles O5: one hook for the three compares, on the register each names. -/
theorem comparesSetCarryZeroNegative : Obligations.ComparesSetCarryZeroNegative := by
  intro i mode op s a h ha
  refine ⟨fun hrow => ?cmp, fun hrow => ?cpx, fun hrow => ?cpy⟩
  case cmp =>
    obtain ⟨hi, henc⟩ := row_of_mem (mn := .cmp) (by decide) hrow
    exact ⟨henc, read_runsTo hi rfl h ha (by simp only [readOp, Cpu65.finish, Flags.afterCompare_eq])⟩
  case cpx =>
    obtain ⟨hi, henc⟩ := row_of_mem (mn := .cpx) (by decide) hrow
    exact ⟨henc, read_runsTo hi rfl h ha (by simp only [readOp, Cpu65.finish, Flags.afterCompare_eq])⟩
  case cpy =>
    obtain ⟨hi, henc⟩ := row_of_mem (mn := .cpy) (by decide) hrow
    exact ⟨henc, read_runsTo hi rfl h ha (by simp only [readOp, Cpu65.finish, Flags.afterCompare_eq])⟩

/-- Settles O6: the hook of `BIT` writes the three flags as the statement says them. -/
theorem bitTestCopiesOperandBits : Obligations.BitTestCopiesOperandBits := by
  intro i mode op s a h ha hrow
  obtain ⟨hi, henc⟩ := row_of_mem (mn := .bit) (by decide) hrow
  exact ⟨henc, read_runsTo hi rfl h ha (by simp only [readOp, Cpu65.finish, Flags.afterBit])⟩

/-- Settles O8: the rows of `INC` and `DEC` are class M. -/
theorem incrementsAndDecrementsMemory : Obligations.IncrementsAndDecrementsMemory := by
  intro i mode op s a h ha
  refine ⟨fun hrow => ?inc, fun hrow => ?dec⟩
  case inc =>
    obtain ⟨hi, henc⟩ := row_of_mem (mn := .inc) (by decide) hrow
    exact ⟨henc, modify_storesTo hi rfl h ha (by simp only [modifyOp, incOp, Flags.setNZ_eq_withZN])⟩
  case dec =>
    obtain ⟨hi, henc⟩ := row_of_mem (mn := .dec) (by decide) hrow
    exact ⟨henc, modify_storesTo hi rfl h ha (by simp only [modifyOp, decOp, Flags.setNZ_eq_withZN])⟩

/-- Settles O9: the four mnemonics are class ACC on the accumulator and class M on memory. -/
theorem shiftsAndRotatesMoveOneBit : Obligations.ShiftsAndRotatesMoveOneBit := by
  refine ⟨fun i mode op s h hrow => ?asl, fun i mode op s h hrow => ?lsr, fun i mode op s h hrow => ?rol,
    fun i mode op s h hrow => ?ror⟩
  case asl =>
    obtain ⟨hi, henc⟩ := row_of_mem (mn := .asl) (by decide) hrow
    exact ⟨henc, shift_runs hi rfl h (modifyOp_asl _)⟩
  case lsr =>
    obtain ⟨hi, henc⟩ := row_of_mem (mn := .lsr) (by decide) hrow
    exact ⟨henc, shift_runs hi rfl h (modifyOp_lsr _)⟩
  case rol =>
    obtain ⟨hi, henc⟩ := row_of_mem (mn := .rol) (by decide) hrow
    exact ⟨henc, shift_runs hi rfl h (modifyOp_rol _)⟩
  case ror =>
    obtain ⟨hi, henc⟩ := row_of_mem (mn := .ror) (by decide) hrow
    exact ⟨henc, shift_runs hi rfl h (modifyOp_ror _)⟩

/-- Settles O11: the four rows are class IMP, and the hook of each counts its register. -/
theorem indexRegistersCount : Obligations.IndexRegistersCount := by
  intro i op s c' h c hrow
  simp only [List.mem_cons, List.not_mem_nil, or_false, Prod.mk.injEq] at hrow
  obtain ⟨rfl, rfl, rfl⟩ | ⟨rfl, rfl, rfl⟩ | ⟨rfl, rfl, rfl⟩ | ⟨rfl, rfl, rfl⟩ := hrow
  all_goals exact ⟨rfl, imp_runsTo rfl rfl h (by simp only [impOp, Cpu65.finish, Flags.setNZ_eq_withZN, c])⟩

end Sys2Proof.Machine
end

section
/-! PROOF. Flags, jumps, subroutines, the trap and the stack of the 6502 family (43_m65_control.md R290 to R308). A SPECIAL
sequence is followed row by row: each row makes the registers and the memory out of those of the row before, and is one bus
operation (40_m65_engine.md R160). -/

namespace Sys2Proof.Machine

-- The theorems one after the other: elaborated at once they ask for a thread each.
set_option Elab.async false

/-! ## A sequence, row by row (R160, R163) -/

/-- `s` with the 6502 registers `c` and the memory `m`, after the bus operations `ops`. -/
def State.withRows (s : State) (c : Cpu65) (m : Mem) (ops : List BusOp) : State :=
  { s with m65 := c, mem := m, busTrace := s.busTrace ++ ops }

/-- On the 6502 family the first `k` rows lead from `s` to the registers `c` and the memory `m`, and the instruction
goes on. -/
structure RowsTo (mn : Mn) (mode : Mode) (s : State) (k : Nat) (c : Cpu65) (m : Mem) : Prop where
  is65 : s.cfg.arch.is65 = true
  run : ∃ ops, ops.length = k ∧
    ∀ fuel, runCycles mn mode (fuel + k) s = runCycles mn mode fuel (s.withRows c m ops)

/-- The instruction completes from `s` in `n` rows, with the registers `c` and the memory `m`. -/
def CompletesWith (mn : Mn) (mode : Mode) (s : State) (n : Nat) (c : Cpu65) (m : Mem) : Prop :=
  ∃ ops, ops.length = n ∧ runInstr65 mn mode s = .next (s.withRows c m ops)

section
variable {i : Instr} {mn : Mn} {mode : Mode} {s : State} {k n : Nat} {c c' : Cpu65} {m m' : Mem} {o : BusOp}

/-- After Fetch no row has run, and `T` is 1. -/
theorem RowsTo.start (h : s.fetched65) : RowsTo mn mode s 0 { s.m65 with t := 1 } s.mem := by
  obtain ⟨h65, ht⟩ := h
  refine ⟨h65, [], rfl, fun fuel => congrArg (runCycles mn mode fuel) ?_⟩
  simp only [State.withRows, List.append_nil, ← ht]

/-- One more row, whatever it does on the bus; `T` then names the row after it. -/
theorem RowsTo.step (h : RowsTo mn mode s k c m)
    (hrow : ∀ ops, microCycle mn mode (s.withRows c m ops) = some (s.withRows c' m' (ops ++ [o])))
    (ht : c'.t.toNat = k + 2) : RowsTo mn mode s (k + 1) c' m' := by
  have ht0 : c'.t ≠ 0 := fun h0 => by simp [h0] at ht
  obtain ⟨h65, ops, hlen, hrun⟩ := h
  refine ⟨h65, ops ++ [o], by simp [hlen], fun fuel => ?_⟩
  calc runCycles mn mode (fuel + (k + 1)) s
      = runCycles mn mode (fuel + 1 + k) s := by rw [Nat.add_assoc, Nat.add_comm 1 k]
    _ = runCycles mn mode (fuel + 1) (s.withRows c m ops) := hrun (fuel + 1)
    _ = runCycles mn mode fuel (s.withRows c' m' (ops ++ [o])) := runCycles_next fuel (hrow ops) ht0

/-- The row that finishes, among the six there are at most (R168). -/
theorem RowsTo.complete (h : RowsTo mn mode s k c m)
    (hrow : ∀ ops, microCycle mn mode (s.withRows c m ops) = some (s.withRows c' m' (ops ++ [o])))
    (ht : c'.t = 0) (hk : k < 6) : CompletesWith mn mode s (k + 1) c' m' := by
  obtain ⟨-, ops, hlen, hrun⟩ := h
  obtain ⟨fuel, hfuel⟩ : ∃ fuel, 6 = fuel + 1 + k := ⟨5 - k, by omega⟩
  refine ⟨ops ++ [o], by simp [hlen], ?_⟩
  calc runInstr65 mn mode s
      = runCycles mn mode (fuel + 1 + k) s := by rw [runInstr65, hfuel]
    _ = runCycles mn mode (fuel + 1) (s.withRows c m ops) := hrun (fuel + 1)
    _ = .next (s.withRows c' m' (ops ++ [o])) := runCycles_finish fuel (hrow ops) ht

/-! ### The two kinds of row -/

theorem readRow_withRows (h65 : s.cfg.arch.is65 = true) (ops : List BusOp) (a : Word) (f : Byte → Cpu65 → Cpu65) :
    (s.withRows c m ops).readRow a f =
      s.withRows (f (Mem.read s.cfg m a.toNat) c) m (ops ++ [.read a.toNat (Mem.read s.cfg m a.toNat) false]) := by
  rw [readRow_eq_of65 (s := s.withRows c m ops) h65]
  simp only [State.withRows, List.append_assoc]
  rfl

theorem writeRow_withRows (h65 : s.cfg.arch.is65 = true) (ops : List BusOp) (a : Word) (v : Byte)
    (f : Cpu65 → Cpu65) :
    (s.withRows c m ops).writeRow a v f =
      s.withRows (f c) (Mem.write s.cfg m a.toNat v) (ops ++ [.write a.toNat v false]) := by
  rw [writeRow_eq_of65 (s := s.withRows c m ops) h65]
  simp only [State.withRows, List.append_assoc]

/-- A read row at the address `a`. Which row it is, what it makes of the registers, and which `T` it leaves, the sequence
says by unfolding. -/
theorem RowsTo.read (h : RowsTo mn mode s k c m) (a : Word) {f : Byte → Cpu65 → Cpu65}
    (hrow : ∀ ops, microCycle mn mode (s.withRows c m ops) = some ((s.withRows c m ops).readRow a f) := by
      exact fun _ => rfl)
    (hf : f (Mem.read s.cfg m a.toNat) c = c' := by rfl) (ht : c'.t.toNat = k + 2 := by rfl) :
    RowsTo mn mode s (k + 1) c' m :=
  h.step (fun ops => (hrow ops).trans (congrArg some (hf ▸ readRow_withRows h.is65 ops a f))) ht

/-- A row that writes the byte `v` at the address `a`. -/
theorem RowsTo.write (h : RowsTo mn mode s k c m) (a : Word) (v : Byte) {f : Cpu65 → Cpu65}
    (hrow : ∀ ops, microCycle mn mode (s.withRows c m ops) = some ((s.withRows c m ops).writeRow a v f) := by
      exact fun _ => rfl)
    (hf : f c = c' := by rfl) (ht : c'.t.toNat = k + 2 := by rfl) :
    RowsTo mn mode s (k + 1) c' (Mem.write s.cfg m a.toNat v) :=
  h.step (fun ops => (hrow ops).trans (congrArg some (hf ▸ writeRow_withRows h.is65 ops a v f))) ht

/-- A read row that finishes. -/
theorem RowsTo.readLast (h : RowsTo mn mode s k c m) (a : Word) {f : Byte → Cpu65 → Cpu65}
    (hrow : ∀ ops, microCycle mn mode (s.withRows c m ops) = some ((s.withRows c m ops).readRow a f) := by
      exact fun _ => rfl)
    (hf : f (Mem.read s.cfg m a.toNat) c = c' := by rfl) (ht : c'.t = 0 := by rfl) (hk : k < 6 := by decide) :
    CompletesWith mn mode s (k + 1) c' m :=
  h.complete (fun ops => (hrow ops).trans (congrArg some (hf ▸ readRow_withRows h.is65 ops a f))) ht hk

/-- A write row that finishes. -/
theorem RowsTo.writeLast (h : RowsTo mn mode s k c m) (a : Word) (v : Byte) {f : Cpu65 → Cpu65}
    (hrow : ∀ ops, microCycle mn mode (s.withRows c m ops) = some ((s.withRows c m ops).writeRow a v f) := by
      exact fun _ => rfl)
    (hf : f c = c' := by rfl) (ht : c'.t = 0 := by rfl) (hk : k < 6 := by decide) :
    CompletesWith mn mode s (k + 1) c' (Mem.write s.cfg m a.toNat v) :=
  h.complete (fun ops => (hrow ops).trans (congrArg some (hf ▸ writeRow_withRows h.is65 ops a v f))) ht hk

/-! ### What a completed sequence says of the instruction -/

/-- The final state, for the statements that speak of it. -/
theorem CompletesWith.exec (h : CompletesWith mn mode s n c m) (hi : i.m65 = some (mn, mode)) :
    ∃ t, exec i s = .next t ∧ t.m65 = c ∧ OnlyCpu65AndMem s t ∧ t.busTrace.length = s.busTrace.length + n ∧
      ∀ b, t.peek b = Mem.read s.cfg m b := by
  obtain ⟨ops, hlen, hrun⟩ := h
  exact ⟨_, (exec_of_m65 hi s).trans hrun, rfl, rfl, by simp [State.withRows, hlen], fun _ => rfl⟩

/-- A sequence that wrote nothing. -/
theorem CompletesWith.runsTo (h : CompletesWith mn mode s n c s.mem) (hi : i.m65 = some (mn, mode))
    (hvis : c.visible = c'.visible) : RunsTo65 i s n c' := by
  obtain ⟨ops, hlen, hrun⟩ := h
  exact ⟨_, (exec_of_m65 hi s).trans hrun, hvis, rfl, by simp [State.withRows, hlen]⟩

/-- A sequence that wrote one byte. -/
theorem CompletesWith.storesTo {a : Word} {v : Byte}
    (h : CompletesWith mn mode s n c (Mem.write s.cfg s.mem a.toNat v)) (hi : i.m65 = some (mn, mode))
    (hvis : c.visible = c'.visible) : StoresTo65 i s n c' a v := by
  obtain ⟨t, hex, hregs, honly, hlen, hpeek⟩ := h.exec hi
  refine ⟨t, hex, hregs ▸ hvis, honly, ⟨?_, fun b hb => ?_⟩, hlen⟩
  · rw [hpeek, Mem.read_write_same]
  · rw [hpeek, Mem.read_write_ne _ _ _ _ _ hb]
    rfl

end

/-! ## Flags (R297, R302 to R308) -/

/-- Settles O12: the eight rows are class IMP, and the hook of each writes its one flag. -/
theorem flagInstructionsChangeOneFlag : Obligations.FlagInstructionsChangeOneFlag := by
  intro i op s c' h c hrow
  simp only [List.mem_cons, List.not_mem_nil, or_false, Prod.mk.injEq] at hrow
  obtain ⟨rfl, rfl, rfl⟩ | ⟨rfl, rfl, rfl⟩ | ⟨rfl, rfl, rfl⟩ | ⟨rfl, rfl, rfl⟩ | ⟨rfl, rfl, rfl⟩ | ⟨rfl, rfl, rfl⟩ |
    ⟨rfl, rfl, rfl⟩ | ⟨rfl, rfl, rfl⟩ := hrow
  all_goals exact ⟨rfl, imp_runsTo rfl rfl h rfl⟩

/-! ## Jumps (R290, R291) -/

theorem jmpAbs_runsTo {s : State} (h : s.fetched65) :
    RunsTo65 .jmpAbs s 2 { s.m65 with pc := mkWord (s.peekW (s.m65.pc + 1)) (s.peekW s.m65.pc), t := 0 } := by
  have low : RowsTo .jmp .abs s 1 _ _ := (RowsTo.start h).read s.m65.pc
  have high := low.readLast (s.m65.pc + 1)
  exact high.runsTo rfl rfl

/-- The pointer's low byte wraps in row 4, its high byte stays. -/
theorem jmpInd_runsTo {s : State} (h : s.fetched65) :
    let lo := s.peekW s.m65.pc
    let hi := s.peekW (s.m65.pc + 1)
    RunsTo65 .jmpInd s 4
      { s.m65 with pc := mkWord (s.peekW (mkWord hi (lo + 1))) (s.peekW (mkWord hi lo)), t := 0 } := by
  intro lo hi
  have low : RowsTo .jmp .ind s 1 { s.m65 with pc := s.m65.pc + 1, adl := lo, t := 2 } s.mem :=
    (RowsTo.start h).read s.m65.pc
  have high : RowsTo .jmp .ind s 2 { s.m65 with pc := s.m65.pc + 1 + 1, adl := lo, adh := hi, t := 3 } s.mem :=
    low.read (s.m65.pc + 1)
  have targetLow : RowsTo .jmp .ind s 3
      { s.m65 with pc := s.m65.pc + 1 + 1, adl := lo, adh := hi, data := s.peekW (mkWord hi lo), t := 4 } s.mem :=
    high.read (mkWord hi lo)
  have targetHigh := targetLow.readLast (mkWord hi (lo + 1))
  exact targetHigh.runsTo rfl rfl

/-- Settles O14, from the two sequences. -/
theorem jumpsReachTheirTarget : Obligations.JumpsReachTheirTarget := fun _ h =>
  ⟨rfl, rfl, jmpAbs_runsTo h, jmpInd_runsTo h⟩

/-! ## The stack pointer and its page (R166, R167) -/

theorem add_two_eq (x : Byte) : x + 2 = x + 1 + 1 := (BitVec.add_assoc x 1 1).symm

theorem add_three_eq (x : Byte) : x + 3 = x + 1 + 1 + 1 := by
  rw [← add_two_eq]
  exact (BitVec.add_assoc x 1 2).symm

theorem sub_two_eq (x : Byte) : x - 2 = x - 1 - 1 := (sub_sub x 1 1).symm

theorem sub_three_eq (x : Byte) : x - 3 = x - 1 - 1 - 1 := by
  rw [← sub_two_eq]
  exact (sub_sub x 1 2).symm

/-- The stack never reaches another page, such as that of the vector (R296). -/
theorem stackSlot_lt (x : Byte) : (mkWord 0x01 x).toNat < 512 := by
  have hx := x.isLt
  have hpage : (0x01 : Byte).toNat = 1 := rfl
  rw [mkWord_toNat, hpage]
  omega

theorem stackSlot_inj {x y : Byte} : (mkWord 0x01 x).toNat = (mkWord 0x01 y).toNat ↔ x = y := by
  rw [mkWord_toNat, mkWord_toNat, ← BitVec.toNat_inj, Nat.add_left_cancel_iff]

/-- Memory after the push of `v` with the stack pointer at `x`. -/
def Mem.push (cfg : Config) (m : Mem) (x v : Byte) : Mem := Mem.write cfg m (mkWord 0x01 x).toNat v

theorem Mem.read_push (cfg : Config) (m : Mem) (x v : Byte) (b : Nat) :
    Mem.read cfg (Mem.push cfg m x v) b = if b = (mkWord 0x01 x).toNat then v else Mem.read cfg m b :=
  Mem.read_write ..

theorem Mem.read_push_of_le (cfg : Config) (m : Mem) (x v : Byte) {b : Nat} (hb : 512 ≤ b) :
    Mem.read cfg (Mem.push cfg m x v) b = Mem.read cfg m b := by
  have hx := stackSlot_lt x
  rw [Mem.read_push, if_neg (by omega)]

/-- Two pushes: the slots differ, so both bytes are there. -/
theorem Mem.read_push_push (cfg : Config) (m : Mem) (x v v' : Byte) (b : Nat) :
    Mem.read cfg (Mem.push cfg (Mem.push cfg m x v) (x - 1) v') b =
      if b = (mkWord 0x01 x).toNat then v else if b = (mkWord 0x01 (x - 1)).toNat then v' else Mem.read cfg m b := by
  have hne : (mkWord 0x01 x).toNat ≠ (mkWord 0x01 (x - 1)).toNat := mt stackSlot_inj.mp (by bv_omega)
  rw [Mem.read_push, Mem.read_push]
  grind

/-- Three pushes. -/
theorem Mem.read_push_push_push (cfg : Config) (m : Mem) (x v v' v'' : Byte) (b : Nat) :
    Mem.read cfg (Mem.push cfg (Mem.push cfg (Mem.push cfg m x v) (x - 1) v') (x - 1 - 1) v'') b =
      if b = (mkWord 0x01 x).toNat then v
      else if b = (mkWord 0x01 (x - 1)).toNat then v'
      else if b = (mkWord 0x01 (x - 1 - 1)).toNat then v''
      else Mem.read cfg m b := by
  have hne : (mkWord 0x01 x).toNat ≠ (mkWord 0x01 (x - 1 - 1)).toNat := mt stackSlot_inj.mp (by bv_omega)
  have hne' : (mkWord 0x01 (x - 1)).toNat ≠ (mkWord 0x01 (x - 1 - 1)).toNat := mt stackSlot_inj.mp (by bv_omega)
  rw [Mem.read_push, Mem.read_push_push]
  grind

/-! ## Pushes (R298, R299) -/

theorem pha_storesTo {s : State} (h : s.fetched65) :
    StoresTo65 .pha s 2 { s.m65 with s := s.m65.s - 1, t := 0 } (mkWord 0x01 s.m65.s) s.m65.a := by
  have dummy : RowsTo .pha .imp s 1 _ _ := (RowsTo.start h).read s.m65.pc
  have push := dummy.writeLast (mkWord 0x01 s.m65.s) s.m65.a
  exact push.storesTo rfl rfl

theorem php_storesTo {s : State} (h : s.fetched65) :
    StoresTo65 .php s 2 { s.m65 with s := s.m65.s - 1, t := 0 } (mkWord 0x01 s.m65.s) (s.m65.p.pack true) := by
  have dummy : RowsTo .php .imp s 1 _ _ := (RowsTo.start h).read s.m65.pc
  have push := dummy.writeLast (mkWord 0x01 s.m65.s) (s.m65.p.pack true)
  exact push.storesTo rfl rfl

/-- `pack(P, 1)` over numbers: the place value of each flag, bits 5 and 4 set (R27). -/
theorem Flags.pack_true_eq_ofNat (p : Flags) :
    p.pack true = BitVec.ofNat 8 (128 * p.n.toNat + 64 * p.v.toNat + 32 + 16 + 8 * p.d.toNat + 4 * p.i.toNat +
      2 * p.z.toNat + p.c.toNat) := by
  apply BitVec.eq_of_toNat_eq
  have hn := Bool.toNat_le p.n
  have hv := Bool.toNat_le p.v
  have hd := Bool.toNat_le p.d
  have hi := Bool.toNat_le p.i
  have hz := Bool.toNat_le p.z
  have hc := Bool.toNat_le p.c
  simp only [Flags.pack, toNat_append_mul, BitVec.toNat_ofBool, BitVec.toNat_ofNat, Bool.toNat_true]
  omega

/-- Settles O18: `PHP` pushes `pack(P, 1)`, which the statement spells over numbers. -/
theorem pushesStoreOnTheStack : Obligations.PushesStoreOnTheStack := by
  intro s h p
  refine ⟨rfl, rfl, pha_storesTo h, ?_⟩
  rw [← Flags.pack_true_eq_ofNat]
  exact php_storesTo h

/-! ## Pulls (R300, R301) -/

theorem pla_runsTo {s : State} (h : s.fetched65) :
    let v := s.peekW (mkWord 0x01 (s.m65.s + 1))
    RunsTo65 .pla s 3 { s.m65 with s := s.m65.s + 1, a := v, p := s.m65.p.withZN v, t := 0 } := by
  intro v
  have dummy : RowsTo .pla .imp s 1 _ _ := (RowsTo.start h).read s.m65.pc
  have up := dummy.read (mkWord 0x01 s.m65.s)
  have pull := up.readLast (mkWord 0x01 (s.m65.s + 1))
  rw [← Flags.setNZ_eq_withZN]
  exact pull.runsTo rfl rfl

theorem plp_runsTo {s : State} (h : s.fetched65) :
    let v := s.peekW (mkWord 0x01 (s.m65.s + 1))
    RunsTo65 .plp s 3 { s.m65 with s := s.m65.s + 1, p := s.m65.p.unpack v, t := 0 } := by
  intro v
  have dummy : RowsTo .plp .imp s 1 _ _ := (RowsTo.start h).read s.m65.pc
  have up := dummy.read (mkWord 0x01 s.m65.s)
  have pull := up.readLast (mkWord 0x01 (s.m65.s + 1))
  exact pull.runsTo rfl rfl

/-- Settles O19: the six flags of `PLP` are `unpack` of the byte pulled (R27). -/
theorem pullsLoadFromTheStack : Obligations.PullsLoadFromTheStack := fun _ h =>
  ⟨rfl, rfl, pla_runsTo h, plp_runsTo h⟩

/-! ## Subroutines (R292, R293) -/

/-- The high operand byte comes from the memory that holds the two pushes. -/
theorem jsr_completes {s : State} (h : s.fetched65) :
    let ret := s.m65.pc + 1
    let m := Mem.push s.cfg (Mem.push s.cfg s.mem s.m65.s (hiByte ret)) (s.m65.s - 1) (loByte ret)
    let lo := s.peekW s.m65.pc
    let hi := Mem.read s.cfg m ret.toNat
    CompletesWith .jsr .abs s 5
      { s.m65 with s := s.m65.s - 1 - 1, pc := mkWord hi lo, adl := lo, adh := hi, t := 0 } m := by
  intro ret m lo hi
  have low : RowsTo .jsr .abs s 1 { s.m65 with pc := ret, adl := lo, t := 2 } s.mem := (RowsTo.start h).read s.m65.pc
  have dummy : RowsTo .jsr .abs s 2 { s.m65 with pc := ret, adl := lo, t := 3 } s.mem :=
    low.read (mkWord 0x01 s.m65.s)
  have pushHigh : RowsTo .jsr .abs s 3 { s.m65 with s := s.m65.s - 1, pc := ret, adl := lo, t := 4 } _ :=
    dummy.write (mkWord 0x01 s.m65.s) (hiByte ret)
  have pushLow : RowsTo .jsr .abs s 4 { s.m65 with s := s.m65.s - 1 - 1, pc := ret, adl := lo, t := 5 } m :=
    pushHigh.write (mkWord 0x01 (s.m65.s - 1)) (loByte ret)
  exact pushLow.readLast ret

theorem rts_runsTo {s : State} (h : s.fetched65) :
    let lo := s.peekW (mkWord 0x01 (s.m65.s + 1))
    let hi := s.peekW (mkWord 0x01 (s.m65.s + 2))
    RunsTo65 .rts s 5 { s.m65 with s := s.m65.s + 2, pc := mkWord hi lo + 1, t := 0 } := by
  rw [add_two_eq]
  intro lo hi
  have dummy : RowsTo .rts .imp s 1 { s.m65 with t := 2 } s.mem := (RowsTo.start h).read s.m65.pc
  have up : RowsTo .rts .imp s 2 { s.m65 with s := s.m65.s + 1, t := 3 } s.mem := dummy.read (mkWord 0x01 s.m65.s)
  have pullLow : RowsTo .rts .imp s 3 { s.m65 with s := s.m65.s + 1 + 1, adl := lo, t := 4 } s.mem :=
    up.read (mkWord 0x01 (s.m65.s + 1))
  have pullHigh : RowsTo .rts .imp s 4
      { s.m65 with s := s.m65.s + 1 + 1, pc := mkWord hi lo, adl := lo, adh := hi, t := 5 } s.mem :=
    pullLow.read (mkWord 0x01 (s.m65.s + 1 + 1))
  have last := pullHigh.readLast (mkWord hi lo)
  exact last.runsTo rfl rfl

/-- Settles O15, from the two sequences and what the memory of `JSR` reads as after its pushes. -/
theorem subroutineCallAndReturn : Obligations.SubroutineCallAndReturn := by
  intro s h top second ret
  refine ⟨rfl, rfl, ?jsr, rts_runsTo h⟩
  case jsr =>
    obtain ⟨t, hex, hregs, honly, hlen, hpeek⟩ := (jsr_completes h).exec (i := .jsr) rfl
    refine ⟨t, hex, honly, hlen, fun b => (hpeek b).trans (Mem.read_push_push ..), ?_⟩
    rw [hregs, sub_two_eq, ← hpeek]
    rfl

/-! ## The trap and its return (R294, R296, 60_exceptions.md R452, R453) -/

/-- The two bytes of the vector come from memory as it was: they lie outside the stack's page. -/
theorem brk_completes {s : State} (h : s.fetched65) :
    let ret := s.m65.pc + 1
    let m := Mem.push s.cfg (Mem.push s.cfg (Mem.push s.cfg s.mem s.m65.s (hiByte ret)) (s.m65.s - 1) (loByte ret))
      (s.m65.s - 1 - 1) (s.m65.p.pack true)
    let lo := s.peekW 0xFFFE
    let hi := s.peekW 0xFFFF
    CompletesWith .brk .imp s 6
      { s.m65 with
        s := s.m65.s - 1 - 1 - 1
        p := { s.m65.p with i := true, b := true }
        pc := mkWord hi lo
        adl := lo
        adh := hi
        t := 0 } m := by
  intro ret m lo hi
  have hvector : ∀ a : Word, 512 ≤ a.toNat → s.peekW a = Mem.read s.cfg m a.toNat := fun a ha => by
    simp only [m, Mem.read_push_of_le _ _ _ _ ha]
    rfl
  have skip : RowsTo .brk .imp s 1 { s.m65 with pc := ret, t := 2 } s.mem := (RowsTo.start h).read s.m65.pc
  have pushHigh : RowsTo .brk .imp s 2 { s.m65 with pc := ret, s := s.m65.s - 1, t := 3 } _ :=
    skip.write (mkWord 0x01 s.m65.s) (hiByte ret)
  have pushLow : RowsTo .brk .imp s 3 { s.m65 with pc := ret, s := s.m65.s - 1 - 1, t := 4 } _ :=
    pushHigh.write (mkWord 0x01 (s.m65.s - 1)) (loByte ret)
  have pushFlags : RowsTo .brk .imp s 4 { s.m65 with pc := ret, s := s.m65.s - 1 - 1 - 1, t := 5 } m :=
    pushLow.write (mkWord 0x01 (s.m65.s - 1 - 1)) (s.m65.p.pack true)
  have low : RowsTo .brk .imp s 5
      { s.m65 with
        pc := ret
        s := s.m65.s - 1 - 1 - 1
        p := { s.m65.p with i := true, b := true }
        adl := Mem.read s.cfg m (0xFFFE : Word).toNat
        t := 6 } m :=
    pushFlags.read 0xFFFE
  have high := low.readLast 0xFFFF
  have hlo : lo = Mem.read s.cfg m (0xFFFE : Word).toNat := hvector 0xFFFE (by decide)
  have hhi : hi = Mem.read s.cfg m (0xFFFF : Word).toNat := hvector 0xFFFF (by decide)
  rw [hlo, hhi]
  exact high

/-- Settles O16: the sequence, and what the three slots read as. -/
theorem breakEntersTheTrap : Obligations.BreakEntersTheTrap := by
  intro s h
  rw [sub_two_eq, sub_three_eq]
  intro at0 at1 at2 ret
  obtain ⟨t, hex, hregs, honly, hlen, hpeek⟩ := (brk_completes h).exec (i := .brk) rfl
  exact ⟨rfl, t, hex, honly, hlen, fun b => (hpeek b).trans (Mem.read_push_push_push ..), by rw [hregs]; rfl⟩

theorem rti_runsTo {s : State} (h : s.fetched65) :
    let v := s.peekW (mkWord 0x01 (s.m65.s + 1))
    let lo := s.peekW (mkWord 0x01 (s.m65.s + 2))
    let hi := s.peekW (mkWord 0x01 (s.m65.s + 3))
    RunsTo65 .rti s 5
      { s.m65 with s := s.m65.s + 3, p := s.m65.p.unpack v, pc := mkWord hi lo, t := 0 } := by
  rw [add_two_eq, add_three_eq]
  intro v lo hi
  have dummy : RowsTo .rti .imp s 1 { s.m65 with t := 2 } s.mem := (RowsTo.start h).read s.m65.pc
  have up : RowsTo .rti .imp s 2 { s.m65 with s := s.m65.s + 1, t := 3 } s.mem := dummy.read (mkWord 0x01 s.m65.s)
  have pullFlags : RowsTo .rti .imp s 3 { s.m65 with s := s.m65.s + 1 + 1, p := s.m65.p.unpack v, t := 4 } s.mem :=
    up.read (mkWord 0x01 (s.m65.s + 1))
  have pullLow : RowsTo .rti .imp s 4
      { s.m65 with s := s.m65.s + 1 + 1 + 1, p := s.m65.p.unpack v, adl := lo, t := 5 } s.mem :=
    pullFlags.read (mkWord 0x01 (s.m65.s + 1 + 1))
  have pullHigh := pullLow.readLast (mkWord 0x01 (s.m65.s + 1 + 1 + 1))
  exact pullHigh.runsTo rfl rfl

/-- Settles O17: the flags are `unpack` of the first byte pulled (R27). -/
theorem returnFromInterruptRestores : Obligations.ReturnFromInterruptRestores := fun _ h =>
  ⟨rfl, rti_runsTo h⟩

end Sys2Proof.Machine
end

section
/-! PROOF. The two bytes that a CHIP-8 instance reads at `PC`: by a skip that peeks (45_c8_engine.md R325), and by the fetch
of an unknown opcode (R322, R324, 60_exceptions.md R443). -/

namespace Sys2Proof.Machine

/-! ## Reports of the reads at `PC` -/

/-- The reports of the two reads, as kinds and addresses. -/
theorem State.fetchReports_map (s : State) :
    s.fetchReports.map (fun r => (r.kind, r.info)) = rangeFaults s.cfg .outOfBoundsRead s.c8.pc.toNat 2 := by
  simp only [State.fetchReports, rangeFaults, List.map_map, Function.comp_def]

/-- From the end of the memory on, every address of a run is reported. -/
theorem rangeFaults_of_ge {c : Config} {a : Nat} (h : c.memSize ≤ a) (k : FaultKind) (n : Nat) :
    rangeFaults c k a n = (List.range n).map fun i => (k, some (a + i)) := by
  rw [rangeFaults, List.filter_eq_self.mpr fun i _ => decide_eq_true (h.trans (Nat.le_add_right a i))]

/-! ## Skips (R325, 46_c8_base.md R354 to R357, R372, R373) -/

/-- Without the peek of XOCHIP a skip moves `PC` and nothing else. -/
theorem State.skip_of_ne {s : State} (h : s.cfg.arch ≠ .xochip) :
    s.skip = { s with c8 := { s.c8 with pc := s.c8.pc + 2 } } := by
  rw [State.skip, if_neg h]
  rfl

/-- On XOCHIP a skip reads the two bytes at `PC`, and steps over the second word of `F000 NNNN` too. -/
theorem State.skip_of_xochip {s : State} (h : s.cfg.arch = .xochip) :
    s.skip = { s with
      c8 := { s.c8 with pc := if s.readVal2 s.c8.pc.toNat = 0xF000 then s.c8.pc + 4 else s.c8.pc + 2 }
      faultLog := s.faultLog ++ s.fetchReports
      busTrace := s.busTrace ++ busReads s s.c8.pc.toNat 2 } := by
  rw [State.skip, if_pos h, State.afterRead2_fetch s (isC8_of_xochip h)]
  rfl

/-- A key is selected by the low four bits of a register (D16). -/
theorem State.keyDown_lowNibble (s : State) (b : Byte) :
    s.keyDown (lowNibble b) = s.c8.key.toList.getD (b.toNat % 16) false := by
  have hlow : lowNibble b = BitVec.ofNat 4 (b.toNat % 16) := by
    apply BitVec.eq_of_toNat_eq
    simp [lowNibble, BitVec.extractLsb'_toNat]
  rw [hlow, keyDown_ofNat (Nat.mod_lt _ (by decide))]

/-- Settles O28: each of the six is a skip under its condition, and a skip does what its architecture says. -/
theorem skipsStepOverTheNextInstruction : Obligations.SkipsStepOverTheNextInstruction := by
  intro x y nn s i cond key hrow
  have hexec : exec i s = .next (s.skipIf cond) := by
    simp only [List.mem_cons, List.not_mem_nil, or_false, Prod.mk.injEq, key, ← State.keyDown_lowNibble] at hrow
    obtain ⟨rfl, rfl⟩ | ⟨rfl, rfl⟩ | ⟨rfl, rfl⟩ | ⟨rfl, rfl⟩ | ⟨rfl, rfl⟩ | ⟨rfl, rfl⟩ := hrow
    all_goals rfl
  rw [hexec]
  refine ⟨fun hc => ?_, fun hc hne => ?_, fun hc hx => ⟨s.skip, ?_, ?_, s.fetchReports, ?_, s.fetchReports_map⟩⟩
  · rw [hc]
    rfl
  · rw [hc, ← State.skip_of_ne hne]
    rfl
  · rw [hc]
    rfl
  · rw [State.skip_of_xochip hx]
    rfl
  · rw [State.skip_of_xochip hx]

/-! ## Unknown opcodes (R324, 30_encoding.md R137) -/

/-- The fetch, then the one record of R324, which the fetched state makes. -/
theorem macroStep_unknown {s : State} {e : DecodeError} (h65 : s.cfg.arch.is65 = false)
    (hd : decodeC8 s.cfg.arch (s.readVal2 s.c8.pc.toNat) = .error e) :
    macroStep s = .next { s.fetchedC8 with
      faultLog := s.faultLog ++ s.fetchReports ++
        [{ kind := .unknownOpcode, arch := s.cfg.arch, opcode := s.readVal2 s.c8.pc.toNat, pc := s.c8.pc + 2,
           regs := s.fetchedC8.dumpState, info := none }] } := by
  have hrecord : s.fetchedC8.faultRecord .unknownOpcode none =
      { kind := .unknownOpcode, arch := s.cfg.arch, opcode := s.readVal2 s.c8.pc.toNat, pc := s.c8.pc + 2,
        regs := s.fetchedC8.dumpState, info := none } := by
    simp [State.faultRecord, State.fetchedC8, State.readVal2, h65]
  rw [macroStep_error hd, State.fetchC8_eq s h65, State.raise, hrecord]
  rfl

/-- Past the memory of CHIP8 the fetch reads 0x0000, which is no opcode. -/
theorem readVal2_of_ge {s : State} {a : Nat} (h : s.cfg.memSize ≤ a) : s.readVal2 a = 0 := by
  rw [State.readVal2, State.readVal_of_ge s a (Nat.not_lt.mpr h),
    State.readVal_of_ge s (a + 1) (Nat.not_lt.mpr (Nat.le_succ_of_le h))]
  rfl

/-- On CHIP8 a word with a top digit of 0 is `CLS`, `RET` or unknown: there are no machine-code calls (R137). -/
theorem decodeC8_chip8_top0 {nnn : BitVec 12} (hcls : nnn ≠ 0x0E0) (hret : nnn ≠ 0x0EE) :
    decodeC8 .chip8 (0x0#4 ++ nnn) = .error (.unknownOpcode (0x0#4 ++ nnn)) := by
  have hne : ∀ v : BitVec 12, nnn ≠ v → 0x0#4 ++ nnn ≠ 0x0#4 ++ v := fun v hv h => hv <| by
    simpa only [opNNN_digit_addr] using congrArg opNNN h
  have hrow : decodeC8Row .chip8 (0x0#4 ++ nnn) = none := by
    simp only [decodeC8Row, opTop_digit_addr]
    show decodeTop0 .chip8 (0x0#4 ++ nnn) = none
    exact (if_neg (hne 0x0E0 hcls)).trans ((if_neg (hne 0x0EE hret)).trans (if_neg (by decide)))
  rw [decodeC8, hrow]

/-- Settles O46: the record after those of the fetch, and past the memory of CHIP8 the three in their order. -/
theorem unknownOpcodeIsOneRecord : Obligations.UnknownOpcodeIsOneRecord := by
  refine ⟨fun s e h65 => macroStep_unknown h65, fun s h8 hpc => ?_,
    fun nnn hcls hret => decodeC8_chip8_top0 hcls hret, rfl⟩
  have hge : s.cfg.memSize ≤ s.c8.pc.toNat := by simpa [Config.memSize, h8, Arch.memSize] using hpc
  have hzero : s.readVal2 s.c8.pc.toNat = 0 := readVal2_of_ge hge
  have hd : decodeC8 s.cfg.arch (s.readVal2 s.c8.pc.toNat) = .error (.unknownOpcode 0) := by
    rw [hzero, h8]
    rfl
  refine ⟨_, macroStep_unknown (by rw [h8]; rfl) hd, rfl, hzero, _, List.append_assoc .., ?_⟩
  rw [List.map_append, State.fetchReports_map, rangeFaults_of_ge hge]
  rfl

end Sys2Proof.Machine
end

section
/-! PROOF. The step loop of the CHIP-8 family (45_c8_engine.md R320 to R323, R326): the breakpoint and its halt, and what a
batch of steps is. Whether display wait drops the rest of a batch, the opcode that was fetched decides alone. -/

namespace Sys2Proof.Machine

/-! ## The breakpoint (R320, R321, R323, 10_state.md R78) -/

/-- The halt, field by field. -/
theorem State.halt_eq {s : State} (hx : s.cfg.arch = .xochip) :
    s.halt = { s with xo := { s.xo with
      halted := true
      debugLog := s.xo.debugLog ++
        [(s.xo.cycles, .xochip s.c8.dump
          { plane := s.xo.plane, hires := s.xo.hires, pitch := s.xo.pitch, cycles := s.xo.cycles, halted := true })] } } := by
  rw [← State.halt_xo hx]
  rfl

/-- Settles O48: the halt holds every tick, the breakpoint reports and halts, and its host operations are those of XOCHIP. -/
theorem breakpointHaltsUntilCleared : Obligations.BreakpointHaltsUntilCleared := by
  refine ⟨fun s k hx hh => tickC8_halted k hx hh, fun s k hx hh hen hpc => ?_, fun s a hx => ?_, fun s a hx => ?_⟩
  · have hbp : s.atBreakpoint = true := by simp [State.atBreakpoint, hx, hen, hpc]
    rw [tickC8_atBreakpoint k (by simp [hh]) hbp, State.halt_eq hx]
    rfl
  · constructor
    · simp [runHostOp, State.setBreakpoint, State.updXo, hx]
    · simp [runHostOp, State.clearBreakpoint, State.updXo, hx]
  · constructor
    · simp [runHostOp, State.setBreakpoint, hx]
    · simp [runHostOp, State.clearBreakpoint, hx]

/-! ## What a macro-step leaves of the opcode fetched -/

/-- The parameters and `OP` stay, and with them the display-wait request. -/
structure KeepsOp (s t : State) : Prop where
  cfg : t.cfg = s.cfg
  op : t.c8.op = s.c8.op

theorem KeepsOp.trans {s t u : State} (h : KeepsOp s t) (h' : KeepsOp t u) : KeepsOp s u :=
  ⟨h'.cfg.trans h.cfg, h'.op.trans h.op⟩

theorem KeepsOp.waitRequested {s t : State} (h : KeepsOp s t) : t.waitRequested = s.waitRequested := by
  rw [State.waitRequested, State.waitRequested, h.cfg, h.op]

/-! ### The shared operations -/

theorem keepsOp_setReg (s : State) (x : BitVec 4) (b : Byte) : KeepsOp s (s.setReg x b) := ⟨rfl, rfl⟩

theorem keepsOp_setPc (s : State) (w : Word) : KeepsOp s (s.setPc w) := ⟨rfl, rfl⟩

theorem keepsOp_setI (s : State) (w : Word) : KeepsOp s (s.setI w) := ⟨rfl, rfl⟩

theorem keepsOp_setFb (s : State) (fb : FrameBuf) : KeepsOp s (s.setFb fb) := ⟨rfl, rfl⟩

theorem keepsOp_updXo (s : State) (f : XoState → XoState) : KeepsOp s (s.updXo f) := ⟨rfl, rfl⟩

theorem keepsOp_raise (s : State) (k : FaultKind) (info : Option Nat) : KeepsOp s (s.raise k info) := ⟨rfl, rfl⟩

theorem keepsOp_memWrite (s : State) (a : Nat) (v : Byte) : KeepsOp s (s.memWrite a v) := ⟨by simp, by simp⟩

theorem keepsOp_skipIf (s : State) (cond : Bool) : KeepsOp s (s.skipIf cond) := by
  obtain ⟨hcfg, -, -, hc8, -, -, -⟩ := s.skip_same
  cases cond with
  | false => exact ⟨rfl, rfl⟩
  | true => exact ⟨hcfg, (congrArg CpuC8.op hc8 :)⟩

theorem keepsOp_setWithFlag (s : State) (x : BitVec 4) (r f : Byte) : KeepsOp s (s.setWithFlag x r f) :=
  (keepsOp_setReg s x r).trans (keepsOp_setReg _ 0xF f)

theorem keepsOp_setLogic (s : State) (x : BitVec 4) (r : Byte) : KeepsOp s (s.setLogic x r) := by
  unfold State.setLogic
  split
  · exact keepsOp_setWithFlag s x r 0
  · exact keepsOp_setReg s x r

theorem keepsOp_advanceI (s : State) (x : BitVec 4) : KeepsOp s (s.advanceI x) := by
  unfold State.advanceI
  split
  · exact keepsOp_setI s _
  · exact ⟨rfl, rfl⟩

theorem keepsOp_storeRegs (s : State) (a : Nat) (rs : List (BitVec 4)) : KeepsOp s (s.storeRegs a rs) := by
  obtain ⟨hcfg, -, hc8, -, -, -⟩ := s.storeRegs_same a rs
  exact ⟨hcfg, congrArg CpuC8.op hc8⟩

theorem keepsOp_loadRegs (s : State) (a : Nat) (rs : List (BitVec 4)) : KeepsOp s (s.loadRegs a rs) := by
  obtain ⟨hcfg, -, -, hc8, -, -, -⟩ := s.loadRegs_same a rs
  exact ⟨hcfg, (congrArg CpuC8.op hc8 :)⟩

theorem keepsOp_loadPattern (s : State) (a i k : Nat) : KeepsOp s (s.loadPattern a i k) := by
  obtain ⟨hcfg, -, -, hc8, -, -, -⟩ := s.loadPattern_same a i k
  exact ⟨hcfg, congrArg CpuC8.op hc8⟩

theorem keepsOp_saveFlags (s : State) (rs : List (BitVec 4)) : KeepsOp s (s.saveFlags rs) := by
  rw [State.saveFlags_eq]
  exact keepsOp_updXo s _

theorem keepsOp_restoreFlags (s : State) (rs : List (BitVec 4)) : KeepsOp s (s.restoreFlags rs) := by
  rw [State.restoreFlags_eq]
  exact ⟨rfl, rfl⟩

theorem keepsOp_drawSprite (s : State) (x y n : BitVec 4) : KeepsOp s (s.drawSprite x y n).1 := by
  obtain ⟨hcfg, -, -, hc8, -, -, -⟩ := sameButFb_drawSprite s x y n
  exact ⟨hcfg, (congrArg CpuC8.op hc8 :)⟩

/-! ### The meanings that branch -/

theorem keepsOp_execCls (s : State) : OnNext (KeepsOp s) (execCls s) := by
  unfold execCls
  split
  · exact keepsOp_setFb s _
  · exact keepsOp_setFb s _

theorem keepsOp_execRet (s : State) : OnNext (KeepsOp s) (execRet s) := by
  unfold execRet
  split
  · exact keepsOp_raise s _ _
  · exact ⟨rfl, rfl⟩

theorem keepsOp_execCall (nnn : BitVec 12) (s : State) : OnNext (KeepsOp s) (execCall nnn s) := by
  unfold execCall
  split
  · exact keepsOp_raise s _ _
  · exact ⟨rfl, rfl⟩

theorem keepsOp_execLdVxK (x : BitVec 4) (s : State) : OnNext (KeepsOp s) (execLdVxK x s) := by
  unfold execLdVxK
  split
  · exact ⟨rfl, rfl⟩
  · split
    · exact (keepsOp_setReg s x (s.c8.kwIndex.setWidth 8)).trans ⟨rfl, rfl⟩
    · exact keepsOp_setPc s _

/-- No instruction of the CHIP-8 family writes `OP` or the parameters. -/
theorem keepsOp_exec {i : Instr} (hm : i.m65 = none) (s : State) : OnNext (KeepsOp s) (exec i s) := by
  cases i
  case cls => exact keepsOp_execCls s
  case ret => exact keepsOp_execRet s
  case call nnn => exact keepsOp_execCall nnn s
  case ldVxK x => exact keepsOp_execLdVxK x s
  case jp | jpV0 => exact keepsOp_setPc s _
  case seImm | sneImm | seReg | sneReg | skp | sknp => exact keepsOp_skipIf s _
  case ldImm | addImm | ldReg | ldVxDt => exact keepsOp_setReg s _ _
  case orReg | andReg | xorReg => exact keepsOp_setLogic s _ _
  case addReg | subReg | shrReg | subnReg | shlReg => exact keepsOp_setWithFlag s _ _ _
  case rnd => exact (keepsOp_setReg s _ _).trans ⟨rfl, rfl⟩
  case ldI | addI | ldF | ldHf => exact keepsOp_setI s _
  case ldDtVx | ldStVx => exact ⟨rfl, rfl⟩
  case ldB => exact (keepsOp_memWrite s _ _).trans ((keepsOp_memWrite _ _ _).trans (keepsOp_memWrite _ _ _))
  case ldMemVx x => exact (keepsOp_storeRegs s _ (regsTo x)).trans (keepsOp_advanceI _ x)
  case ldVxMem x => exact (keepsOp_loadRegs s _ (regsTo x)).trans (keepsOp_advanceI _ x)
  case saveRange x y => exact keepsOp_storeRegs s _ (regsBetween x y)
  case loadRange x y => exact keepsOp_loadRegs s _ (regsBetween x y)
  case ldILong => exact ⟨by simp, by simp⟩
  case drw x y n => exact (keepsOp_drawSprite s x y n).trans (keepsOp_setReg _ _ _)
  case scd | scu | scr | scl => exact keepsOp_setFb s _
  case low | high => exact (keepsOp_setFb s _).trans (keepsOp_updXo _ _)
  case plane | pitch => exact keepsOp_updXo s _
  case audio => exact keepsOp_loadPattern s _ _ _
  case ldRVx x => exact keepsOp_saveFlags s (regsTo x)
  case ldVxR x => exact keepsOp_restoreFlags s (regsTo x)
  all_goals cases hm

/-! ### The macro-step and its request -/

/-- After a macro-step `OP` is the opcode fetched. -/
theorem macroStep_keepsOp {s t : State} (hm : macroStep s = .next t) : KeepsOp s.fetchC8 t := by
  have hop : OnNext (KeepsOp s.fetchC8) (macroStep s) := by
    cases hd : decodeC8 s.cfg.arch (s.readVal2 s.c8.pc.toNat) with
    | ok i =>
      rw [macroStep_ok hd]
      exact keepsOp_exec (decodeC8_m65 hd) _
    | error e =>
      rw [macroStep_error hd]
      exact keepsOp_raise _ _ _
  exact hop.of_eq hm

theorem macroStep_cfg {s t : State} (hm : macroStep s = .next t) : t.cfg = s.cfg :=
  (macroStep_keepsOp hm).cfg.trans s.fetchC8_same.1

/-- With display wait on CHIP8 the request is that the opcode fetched is a `DRW` (R326). -/
theorem macroStep_waitRequested {s t : State} (h8 : s.cfg.arch = .chip8) (hdw : s.cfg.displayWait = true)
    (hm : macroStep s = .next t) : t.waitRequested = decide (opTop (s.readVal2 s.c8.pc.toNat) = 0xD) := by
  have hcfg : s.fetchC8.cfg = s.cfg := s.fetchC8_same.1
  rw [(macroStep_keepsOp hm).waitRequested, State.waitRequested, hcfg, s.fetchC8_c8, h8, hdw]
  rfl

/-! ## A batch of steps (R320, R326) -/

theorem xochip_of_atBreakpoint {s : State} (h : s.atBreakpoint = true) : s.cfg.arch = .xochip := by
  simp only [State.atBreakpoint, Bool.and_eq_true, decide_eq_true_eq] at h
  obtain ⟨⟨hx, -⟩, -⟩ := h
  exact hx

/-- No batch ends in a fault or a refusal. -/
theorem tickC8_next (k : Nat) (s : State) : ∃ t, tickC8 k s = .next t := by
  induction k generalizing s with
  | zero => exact ⟨s, rfl⟩
  | succ k ih =>
    by_cases hh : s.cfg.arch = .xochip ∧ s.xo.halted = true
    · exact ⟨s, tickC8_halted _ hh.1 hh.2⟩
    cases hb : s.atBreakpoint with
    | true => exact ⟨s.halt, tickC8_atBreakpoint k hh hb⟩
    | false =>
      obtain ⟨u, hm⟩ := macroStep_next s
      rw [tickC8_run k hh hb hm]
      split
      · exact ⟨u, rfl⟩
      · exact ih u

/-- No display wait: on XOCHIP, or with the parameter off. -/
def State.neverWaits (s : State) : Prop := s.cfg.arch = .xochip ∨ s.cfg.displayWait = false

theorem State.neverWaits.waitRequested {s : State} (h : s.neverWaits) : s.waitRequested = false := by
  obtain hx | hdw := h
  · simp [State.waitRequested, hx]
  · simp [State.waitRequested, hdw]

/-- Without display wait a batch in two parts is the one part, then the other: a halt holds the second part too. -/
theorem tickC8_add {k : Nat} (l : Nat) {s t : State} (hw : s.neverWaits) (ht : tickC8 k s = .next t) :
    tickC8 (k + l) s = tickC8 l t := by
  induction k generalizing s with
  | zero =>
    cases ht
    rw [Nat.zero_add]
  | succ k ih =>
    by_cases hh : s.cfg.arch = .xochip ∧ s.xo.halted = true
    · rw [tickC8_halted _ hh.1 hh.2] at ht
      cases ht
      rw [tickC8_halted _ hh.1 hh.2, tickC8_halted _ hh.1 hh.2]
    rw [Nat.add_right_comm]
    cases hb : s.atBreakpoint with
    | true =>
      rw [tickC8_atBreakpoint k hh hb] at ht
      cases ht
      rw [tickC8_atBreakpoint _ hh hb, tickC8_halted (s := s.halt) l (xochip_of_atBreakpoint hb) rfl]
    | false =>
      obtain ⟨u, hm⟩ := macroStep_next s
      have hu : u.neverWaits := by
        rw [State.neverWaits, macroStep_cfg hm]
        exact hw
      have hrun : ∀ j, tickC8 (j + 1) s = tickC8 j u := fun j => by
        rw [tickC8_run j hh hb hm, hu.waitRequested, if_neg Bool.false_ne_true]
      rw [hrun] at ht ⊢
      exact ih hu ht

/-- With display wait on CHIP8, which has no halt and no breakpoint, the opcode at `PC` says whether the batch goes on. -/
theorem tickC8_displayWait {s t : State} (k : Nat) (h8 : s.cfg.arch = .chip8) (hdw : s.cfg.displayWait = true)
    (hm : macroStep s = .next t) :
    tickC8 (k + 1) s = if opTop (s.readVal2 s.c8.pc.toNat) = 0xD then .next t else tickC8 k t := by
  have hh : ¬ (s.cfg.arch = .xochip ∧ s.xo.halted = true) := by simp [h8]
  have hb : s.atBreakpoint = false := by simp [State.atBreakpoint, h8]
  rw [tickC8_run k hh hb hm, macroStep_waitRequested h8 hdw hm]
  simp only [decide_eq_true_eq]

theorem decodeC8_drw (a : Arch) (x y n : BitVec 4) : decodeC8 a (0xD#4 ++ x ++ y ++ n) = .ok (.drw x y n) :=
  decodeC8_eq_ok_iff.mpr ⟨rfl, fun h => by cases h⟩

theorem State.tick_ofC8 {s : State} (h65 : s.cfg.arch.is65 = false) (k : Nat) : s.tick k = tickC8 k s := by
  rw [State.tick, h65, if_neg Bool.false_ne_true]

/-- Settles O49: the split without display wait, and the two cases of the opcode with it. -/
theorem tickBudgetIsSplitOrTruncated : Obligations.TickBudgetIsSplitOrTruncated := by
  refine ⟨fun s k l hw => ?_, fun s k x y n h8 hdw hop => ?_, fun s k h8 hdw hop => ?_, fun s => rfl,
    fun s k h65 => ⟨State.tick_ofC8 h65 k, State.tick_ofC8 h65 k⟩⟩
  · obtain ⟨t, ht⟩ := tickC8_next k s
    rw [tickC8_add l hw ht, ht]
  · have hd : decodeC8 s.cfg.arch (s.readVal2 s.c8.pc.toNat) = .ok (.drw x y n) := by rw [hop, decodeC8_drw]
    obtain ⟨t, hm⟩ := macroStep_next s
    rw [tickC8_displayWait k h8 hdw hm, if_pos (hop ▸ opTop_digits ..), ← hm, macroStep_ok hd,
      State.fetchC8_eq s (by rw [h8]; rfl)]
  · obtain ⟨t, hm⟩ := macroStep_next s
    exact ⟨t, hm, by rw [tickC8_displayWait k h8 hdw hm, if_neg hop]⟩

end Sys2Proof.Machine
end

section
/-! PROOF. The timers (45_c8_engine.md R330), and that no step of a legal machine stops it (R328, 60_exceptions.md R440,
R462). -/

namespace Sys2Proof.Machine

/-! ## Timers (R330, 10_state.md R74) -/

theorem decay_toNat (b : Byte) : (decay b).toNat = b.toNat - 1 := by
  unfold decay
  split
  · next h => rw [h]; rfl
  · next h => bv_omega

/-- Any number of decays: each timer that much lower or 0, and nothing else. -/
theorem iterate_decayTimers (k : Nat) (s : State) :
    let t := Nat.iterate State.decayTimers k s
    t.c8.dt.toNat = s.c8.dt.toNat - k ∧ t.c8.st.toNat = s.c8.st.toNat - k ∧
      t = { s with c8 := { s.c8 with dt := t.c8.dt, st := t.c8.st } } := by
  induction k with
  | zero => exact ⟨rfl, rfl, rfl⟩
  | succ k ih =>
    rw [Function.iterate_succ_apply']
    obtain ⟨hdt, hst, hframe⟩ := ih
    refine ⟨?_, ?_, ?_⟩
    · rw [State.decayTimers, State.updC8_c8, decay_toNat, hdt, Nat.sub_sub]
    · rw [State.decayTimers, State.updC8_c8, decay_toNat, hst, Nat.sub_sub]
    · rw [hframe]
      rfl

/-- Settles O50: the decays, the sound they leave, and the host operation. -/
theorem timersDecayToZero : Obligations.TimersDecayToZero := by
  intro s k t
  obtain ⟨hdt, hst, hframe⟩ := iterate_decayTimers k s
  have hcfg : t.cfg = s.cfg := (congrArg State.cfg hframe :)
  refine ⟨hdt, hst, hframe, fun h65 => ⟨?_, by simp [runHostOp, h65]⟩⟩
  have hactive : 0 < t.c8.st.toNat ↔ k < s.c8.st.toNat := by rw [hst]; omega
  simp [State.getSoundActive, hcfg, h65, hactive]

/-! ## Progress (R328, R440, R462) -/

theorem State.tick_next {s : State} (h : s.inFlightLegal = true) (k : Nat) : ∃ t, s.tick k = .next t := by
  cases h65 : s.cfg.arch.is65 with
  | true =>
    obtain ⟨t, ht, -⟩ := tick65_spec h65 h
    exact ⟨t, by rw [State.tick, h65, if_pos rfl, ht]⟩
  | false =>
    rw [State.tick_ofC8 h65]
    exact tickC8_next k s

/-- An operation that the architecture provides, in its domain, is not refused. -/
theorem runHostOp_next {o : HostOp} {s : State} (ho : o.allowed s.cfg.arch = true) (h : s.inFlightLegal = true) :
    ∃ t, runHostOp o s = .next t := by
  cases o with
  | powerOn => exact ⟨_, rfl⟩
  | reset => exact ⟨_, rfl⟩
  | tick steps => exact State.tick_next h steps
  | loggedStep steps => exact State.tick_next h steps
  | decayTimers =>
    simp only [HostOp.allowed, Bool.not_eq_true'] at ho
    exact ⟨s.decayTimers, by simp [runHostOp, ho]⟩
  | loadProgram bytes => exact ⟨_, rfl⟩
  | setKeyState index pressed =>
    simp only [HostOp.allowed, Bool.and_eq_true, Bool.not_eq_true', decide_eq_true_eq] at ho
    exact ⟨s.setKeyState (BitVec.ofNat 4 index) pressed, by simp [runHostOp, ho]⟩
  | setBreakpoint address => exact ⟨_, rfl⟩
  | clearBreakpoint => exact ⟨_, rfl⟩

/-- Settles O58: the pending operation, one instruction of the 6502 family, or one macro-step. -/
theorem machineNeverStops : Obligations.MachineNeverStops := by
  intro s hs hallowed
  show ∃ t, step s = .next t
  cases hq : s.hostQueue with
  | cons o rest =>
    have ho : o.allowed s.cfg.arch = true := hallowed o (by rw [hq]; rfl)
    rw [step_hostOp hq]
    exact runHostOp_next (s := { s with hostQueue := rest }) ho hs.inFlight
  | nil =>
    cases h65 : s.cfg.arch.is65 with
    | true =>
      obtain ⟨-, t, -, -, hr⟩ := finishesIn_of_inFlightLegal h65 hs.inFlight
      exact ⟨t, (step_instr65 hq h65).trans hr⟩
    | false =>
      rw [step_instrC8 hq h65]
      exact tickC8_next 1 s

end Sys2Proof.Machine
end

section
/-! PROOF. The CHIP-8 instructions that work on registers alone (46_c8_base.md R350 to R353, R358 to R371, R374 to R379,
48_xo_ext.md R425): jumps and the call stack, loads and timers, the arithmetic group, `I` and the key wait. -/

namespace Sys2Proof.Machine

-- The theorems one after the other: elaborated at once they ask for a thread each.
set_option Elab.async false

/-! ## Values as numbers (00_scope.md R10) -/

/-- `V[k]` by its number. -/
theorem State.reg_ofNat (s : State) {k : Nat} (hk : k < 16) : s.reg (BitVec.ofNat 4 k) = s.c8.v.toList.getD k 0 := by
  simp [State.reg, Nat.mod_eq_of_lt hk, hk]

theorem zext12_eq_ofNat (nnn : BitVec 12) : zext12 nnn = BitVec.ofNat 16 nnn.toNat := (BitVec.ofNat_toNat 16 nnn).symm

theorem zext8_eq_ofNat (b : Byte) : zext8 b = BitVec.ofNat 16 b.toNat := (BitVec.ofNat_toNat 16 b).symm

theorem lowNibble_toNat (b : Byte) : (lowNibble b).toNat = b.toNat % 16 := by
  simp [lowNibble, BitVec.extractLsb'_toNat]

/-- A word and a byte add up mod 2^16. -/
theorem word_add_zext8 (w : Word) (b : Byte) : w + zext8 b = BitVec.ofNat 16 (w.toNat + b.toNat) := by
  rw [BitVec.ofNat_add, ← zext8_eq_ofNat, BitVec.ofNat_toNat, BitVec.setWidth_eq]

/-- Bytes subtract mod 256. -/
theorem byte_sub_eq_ofInt (a b : Byte) : a - b = BitVec.ofInt 8 ((a.toNat : Int) - b.toNat) := by
  apply BitVec.eq_of_toInt_eq
  rw [BitVec.toInt_ofInt, BitVec.toInt_sub, BitVec.toInt_eq_toNat_bmod, BitVec.toInt_eq_toNat_bmod,
    Int.sub_bmod_bmod, Int.bmod_sub_bmod]

/-- A bit of a byte, as a register value. -/
theorem flagByte_getLsbD (b : Byte) (k : Nat) : flagByte (b.getLsbD k) = BitVec.ofNat 8 (b.toNat / 2 ^ k % 2) := by
  rw [← Nat.toNat_testBit]
  show flagByte (b.toNat.testBit k) = _
  cases b.toNat.testBit k <;> rfl

theorem shiftLeft_one_eq_ofNat (b : Byte) : b <<< 1 = BitVec.ofNat 8 (2 * b.toNat) := by
  simpa [flagByte] using shiftLeft_one_or b false

theorem shiftRight_one_eq_ofNat (b : Byte) : b >>> 1 = BitVec.ofNat 8 (b.toNat / 2) := by
  simpa [flagByte] using shiftRight_one_or b false

/-! ## Jumps (R350, R353) -/

/-- The register of the offset under `Q_JUMP_VX` is the top digit of `nnn`. -/
theorem jumpRegister_eq_ofNat (nnn : BitVec 12) : nnn.extractLsb' 8 4 = BitVec.ofNat 4 (nnn.toNat / 256) := by
  apply BitVec.eq_of_toNat_eq
  rw [BitVec.extractLsb'_toNat, BitVec.toNat_ofNat, Nat.shiftRight_eq_div_pow]

theorem exec_jp (nnn : BitVec 12) (s : State) : exec (.jp nnn) s = .next (s.setPc (BitVec.ofNat 16 nnn.toNat)) := by
  rw [← zext12_eq_ofNat]
  rfl

theorem exec_jpV0 (nnn : BitVec 12) (s : State) (v : Byte)
    (hv : v = if s.cfg.qJumpVx then s.c8.v.toList.getD (nnn.toNat / 256) 0 else s.c8.v.toList.getD 0 0) :
    exec (.jpV0 nnn) s = .next (s.setPc (BitVec.ofNat 16 (nnn.toNat + v.toNat))) := by
  have htop : nnn.toNat / 256 < 16 := by omega
  rw [← State.reg_ofNat s htop, ← State.reg_ofNat s (by decide : 0 < 16), ← jumpRegister_eq_ofNat] at hv
  rw [BitVec.ofNat_add, ← zext12_eq_ofNat, ← zext8_eq_ofNat, hv]
  rfl

/-- Settles O26: both set `PC` alone, to the address and to the sum. -/
theorem jumpsSetProgramCounter : Obligations.JumpsSetProgramCounter := fun nnn s =>
  ⟨⟨rfl, exec_jp nnn s⟩, ⟨rfl, exec_jpV0 nnn s _ rfl⟩, rfl, rfl⟩

/-! ## The call stack (R351, R352) -/

/-- An entry of `STACK` after one entry is written. -/
theorem stack_setIfInBounds_getD (stack : Vector Word 16) (i : Nat) {k : Nat} (hk : k < 16) (w : Word) :
    (stack.setIfInBounds i w).toList.getD k 0 = if k = i then w else stack.toList.getD k 0 := by
  have hget (v : Vector Word 16) : v.toList.getD k 0 = v[k] := by simp [hk]
  rw [hget, hget, Vector.getElem_setIfInBounds]
  simp only [eq_comm]

theorem exec_call_of_lt (nnn : BitVec 12) {s : State} (h : s.c8.sp.toNat < s.cfg.arch.stackDepth) :
    exec (.call nnn) s = .next (s.updC8 fun c =>
      { c with stack := c.stack.setIfInBounds c.sp.toNat c.pc, sp := c.sp + 1, pc := BitVec.ofNat 16 nnn.toNat }) := by
  rw [← zext12_eq_ofNat]
  exact if_neg h.ne

theorem exec_call_of_eq (nnn : BitVec 12) {s : State} (h : s.c8.sp.toNat = s.cfg.arch.stackDepth) :
    exec (.call nnn) s = .next (s.raise .stackOverflow none) := if_pos h

theorem exec_ret_of_ne {s : State} (h : s.c8.sp ≠ 0) :
    exec .ret s = .next (s.updC8 fun c =>
      { c with sp := c.sp - 1, pc := c.stack.toList.getD (c.sp.toNat - 1) 0 }) := by
  have hpos : 1 ≤ s.c8.sp.toNat := Nat.pos_of_ne_zero fun h0 => h (BitVec.eq_of_toNat_eq h0)
  have htop : (s.c8.sp - 1).toNat = s.c8.sp.toNat - 1 := BitVec.toNat_sub_of_le hpos
  rw [State.updC8, ← htop]
  exact if_neg h

theorem exec_ret_of_eq {s : State} (h : s.c8.sp = 0) : exec .ret s = .next (s.raise .stackUnderflow none) := if_pos h

/-- Settles O27: a push below the depth, a pop above 0, and one record at either end. -/
theorem callStackNeverOverflows : Obligations.CallStackNeverOverflows := by
  refine ⟨rfl, rfl, fun nnn s => ⟨fun h => ?_, exec_call_of_eq nnn, exec_ret_of_ne, exec_ret_of_eq⟩⟩
  exact ⟨_, exec_call_of_lt nnn h, rfl, fun k hk => stack_setIfInBounds_getD s.c8.stack s.c8.sp.toNat hk s.c8.pc⟩

/-! ## Register loads and timers (R358 to R360, R371, R374 to R376) -/

/-- Settles O29: four of them are one register write, whose value the row states. -/
theorem registerMovesAndTimers : Obligations.RegisterMovesAndTimers := by
  intro x y nn s
  refine ⟨fun i v hrow => ?_, rfl, rfl⟩
  have hexec : exec i s = .next (s.setReg x v) := by
    simp only [List.mem_cons, List.not_mem_nil, or_false, Prod.mk.injEq, ← BitVec.add_def] at hrow
    obtain ⟨rfl, rfl⟩ | ⟨rfl, rfl⟩ | ⟨rfl, rfl⟩ | ⟨rfl, rfl⟩ := hrow
    all_goals rfl
  exact ⟨_, hexec, rfl, fun r => s.reg_setReg x r v⟩

/-- Settles O33: the byte drawn does not depend on the register write. -/
theorem randomMasksTheDrawnByte : Obligations.RandomMasksTheDrawnByte := fun x nn s =>
  ⟨_, rfl, rfl, fun r => s.reg_setReg x r (Config.rand s.randDraws &&& nn)⟩

/-! ## The arithmetic group and its flag (R361 to R369) -/

/-- A register after the logic group: `VF` is cleared last, so it is 0 when the destination is `VF` too. -/
theorem State.reg_setLogic (s : State) (x y : BitVec 4) (r : Byte) :
    (s.setLogic x r).reg y =
      if y = 15 ∧ s.cfg.qLogicVfReset = true then 0 else if y = x then r else s.reg y := by
  cases h : s.cfg.qLogicVfReset with
  | true => simp [State.setLogic, h, State.reg_setWithFlag]
  | false => simp [State.setLogic, h, State.reg_setReg]

/-- The logic group writes registers alone. -/
theorem State.setLogic_frame (s : State) (x : BitVec 4) (r : Byte) :
    s.setLogic x r = { s with c8 := { s.c8 with v := (s.setLogic x r).c8.v } } := by
  unfold State.setLogic
  split <;> rfl

/-- Settles O30: the combination of the old values, then the clear of `VF`. -/
theorem logicGroupResetsVF : Obligations.LogicGroupResetsVF := by
  intro x y s i v hrow
  have hexec : exec i s = .next (s.setLogic x v) := by
    simp only [List.mem_cons, List.not_mem_nil, or_false, Prod.mk.injEq] at hrow
    obtain ⟨rfl, rfl⟩ | ⟨rfl, rfl⟩ | ⟨rfl, rfl⟩ := hrow
    all_goals rfl
  exact ⟨⟨rfl, rfl⟩, _, hexec, s.setLogic_frame x v, fun r => s.reg_setLogic x r v⟩

/-- What a result with a flag leaves: the flag in `VF`, the result elsewhere, and nothing else changed. -/
theorem setWithFlag_spec {i : Instr} {s : State} {x : BitVec 4} {v f : Byte}
    (hexec : exec i s = .next (s.setWithFlag x v f)) :
    ∃ t, exec i s = .next t ∧ t = { s with c8 := { s.c8 with v := t.c8.v } } ∧
      ∀ r, t.reg r = if r = 15 then f else if r = x then v else s.reg r :=
  ⟨_, hexec, rfl, fun r => s.reg_setWithFlag x r v f⟩

/-- Settles O31: result and flag are functions of the old values, and the flag is written last. -/
theorem arithmeticGroupSetsVF : Obligations.ArithmeticGroupSetsVF := by
  intro x y s i v f a b hrow
  have hexec : exec i s = .next (s.setWithFlag x v (flagByte f)) := by
    simp only [List.mem_cons, List.not_mem_nil, or_false, Prod.mk.injEq, a, b, ← BitVec.add_def,
      ← byte_sub_eq_ofInt] at hrow
    obtain ⟨rfl, rfl, rfl⟩ | ⟨rfl, rfl, rfl⟩ | ⟨rfl, rfl, rfl⟩ := hrow
    all_goals rfl
  exact setWithFlag_spec hexec

theorem exec_shrReg (x y : BitVec 4) (s : State) :
    exec (.shrReg x y) s =
      .next (s.setWithFlag x (BitVec.ofNat 8 ((s.shiftSource x y).toNat / 2))
        (BitVec.ofNat 8 ((s.shiftSource x y).toNat % 2))) := by
  have hbit := flagByte_getLsbD (s.shiftSource x y) 0
  rw [Nat.pow_zero, Nat.div_one] at hbit
  rw [← hbit, ← shiftRight_one_eq_ofNat]
  rfl

theorem exec_shlReg (x y : BitVec 4) (s : State) :
    exec (.shlReg x y) s =
      .next (s.setWithFlag x (BitVec.ofNat 8 (2 * (s.shiftSource x y).toNat))
        (BitVec.ofNat 8 ((s.shiftSource x y).toNat / 128))) := by
  have hone : (s.shiftSource x y).toNat / 2 ^ 7 % 2 = (s.shiftSource x y).toNat / 128 := by omega
  have hbit := flagByte_getLsbD (s.shiftSource x y) 7
  rw [hone] at hbit
  rw [← hbit, ← shiftLeft_one_eq_ofNat]
  rfl

/-- Settles O32: both bytes come from the source as it was. -/
theorem shiftGroupSetsVF : Obligations.ShiftGroupSetsVF := by
  intro x y s i v f src hrow
  have hexec : exec i s = .next (s.setWithFlag x v (BitVec.ofNat 8 f)) := by
    simp only [List.mem_cons, List.not_mem_nil, or_false, Prod.mk.injEq] at hrow
    obtain ⟨rfl, rfl, rfl⟩ | ⟨rfl, rfl, rfl⟩ := hrow
    · exact exec_shrReg x y s
    · exact exec_shlReg x y s
  exact ⟨⟨rfl, rfl⟩, setWithFlag_spec hexec⟩

/-! ## The index register (R370, R377, R379, 48_xo_ext.md R425) -/

/-- Settles O34: each is one write of `I`; the glyph addresses take the low nibble. -/
theorem indexRegisterWrites : Obligations.IndexRegisterWrites := by
  intro x nnn s i v d hrow
  show exec i s = .next (s.setI (BitVec.ofNat 16 v))
  simp only [List.mem_cons, List.not_mem_nil, or_false, Prod.mk.injEq, d, ← lowNibble_toNat] at hrow
  obtain ⟨rfl, rfl⟩ | ⟨rfl, rfl⟩ | ⟨rfl, rfl⟩ | ⟨rfl, rfl⟩ := hrow
  case inl =>
    rw [← zext12_eq_ofNat]
    rfl
  case inr.inl =>
    rw [← word_add_zext8]
    rfl
  case inr.inr.inl => simp only [exec, execLdF, fontBase, Nat.zero_add]
  case inr.inr.inr => rfl

/-! ## The key wait (R378, 10_state.md R46, R76) -/

theorem exec_ldVxK_arm (x : BitVec 4) {s : State} (hw : s.c8.kwWait = false) :
    exec (.ldVxK x) s =
      .next (s.updC8 fun c => { c with kwWait := true, kwValid := false, pc := c.pc - 2 }) := if_pos hw

/-- An edge ends the wait: its key goes to one register, and the latch is empty again. -/
theorem exec_ldVxK_take (x : BitVec 4) {s : State} (hw : s.c8.kwWait = true) (hv : s.c8.kwValid = true) :
    ∃ t, exec (.ldVxK x) s = .next t ∧
      t = { s with c8 := { s.c8 with v := t.c8.v, kwWait := false, kwValid := false } } ∧
      ∀ r, t.reg r = if r = x then BitVec.ofNat 8 s.c8.kwIndex.toNat else s.reg r := by
  refine ⟨(s.setReg x (s.c8.kwIndex.setWidth 8)).updC8 fun c => { c with kwWait := false, kwValid := false },
    ?_, rfl, fun r => ?_⟩
  · simp only [exec, execLdVxK, hw, hv, Bool.true_eq_false, if_false, if_true]
  · rw [BitVec.ofNat_toNat]
    exact s.reg_setReg x r _

theorem exec_ldVxK_wait (x : BitVec 4) {s : State} (hw : s.c8.kwWait = true) (hv : s.c8.kwValid = false) :
    exec (.ldVxK x) s = .next (s.setPc (s.c8.pc - 2)) := by
  simp only [exec, execLdVxK, hw, hv, Bool.true_eq_false, Bool.false_eq_true, if_false]

/-- The key that a wait delivers when `k` is released next (log 11): with D37 an edge already latched stays. -/
def State.latchedKey (s : State) (k : BitVec 4) : BitVec 4 :=
  if s.cfg.keyEdge = .firstInWait ∧ s.c8.kwValid = true then s.c8.kwIndex else k

/-- A release during a key wait: the latch is set, and holds the key of `latchedKey`. -/
theorem State.setKeyState_release {s : State} {k : BitVec 4} (hk : s.keyDown k = true) (hw : s.c8.kwWait = true) :
    s.setKeyState k false =
      { s with c8 := { s.c8 with key := s.c8.key.set k.toNat false k.isLt, kwValid := true,
                                 kwIndex := s.latchedKey k } } := by
  obtain ⟨hedge, heq⟩ | ⟨hedge, heq⟩ := s.setKeyState_cases k false
  · obtain ⟨-, -, hfirst⟩ := (latchesEdge_iff s k false).mp hedge
    have hkey : s.latchedKey k = k := if_neg fun ⟨he, hv⟩ => by
      obtain ⟨-, hnone⟩ := hfirst he
      exact absurd hv (Bool.eq_false_iff.mp hnone)
    rw [heq, hkey]
  · obtain ⟨he, hv⟩ : s.cfg.keyEdge = .firstInWait ∧ s.c8.kwValid = true := by
      simpa [hk, hw] using (latchesEdge_iff s k false).not.mp (Bool.eq_false_iff.mp hedge)
    rw [heq, State.latchedKey, if_pos ⟨he, hv⟩, ← hv]

/-- `KEY` of another key after one is written. -/
theorem State.keyDown_setKeyState_ne (s : State) {j k : BitVec 4} (h : j ≠ k) (pressed : Bool) :
    (s.setKeyState j pressed).keyDown k = s.keyDown k :=
  Vector.getElem_set_ne j.isLt k.isLt fun e => h (BitVec.eq_of_toNat_eq e)

/-- Two releases in one wait: with D37 the latch stays with the first edge, else it goes to the last (log 11). -/
theorem State.setKeyState_two_releases {s : State} {j k : BitVec 4} (hne : j ≠ k) (hj : s.keyDown j = true)
    (hk : s.keyDown k = true) (hw : s.c8.kwWait = true) :
    (s.setKeyState j false).setKeyState k false =
      { s with c8 := { s.c8 with key := (s.c8.key.set j.toNat false j.isLt).set k.toNat false k.isLt, kwValid := true,
                                 kwIndex := if s.cfg.keyEdge = .firstInWait then s.latchedKey j else k } } := by
  have hfirst := State.setKeyState_release hj hw
  have hk' : (s.setKeyState j false).keyDown k = true := (s.keyDown_setKeyState_ne hne false).trans hk
  rw [State.setKeyState_release hk' (by rw [hfirst]; exact hw), State.latchedKey, hfirst]
  simp only [and_true]

/-- Of two keys released in one wait, the next execution takes the one the latch holds. -/
theorem exec_ldVxK_two_releases (x : BitVec 4) {s : State} {j k : BitVec 4} (hne : j ≠ k) (hj : s.keyDown j = true)
    (hk : s.keyDown k = true) (hw : s.c8.kwWait = true) :
    ∃ t, exec (.ldVxK x) ((s.setKeyState j false).setKeyState k false) = .next t ∧ t.c8.kwWait = false ∧
      t.c8.pc = s.c8.pc ∧
      t.reg x = BitVec.ofNat 8 (if s.cfg.keyEdge = .firstInWait then s.latchedKey j else k).toNat := by
  have htwo := State.setKeyState_two_releases hne hj hk hw
  obtain ⟨t, ht, hframe, hreg⟩ := exec_ldVxK_take x (s := (s.setKeyState j false).setKeyState k false)
    (by rw [htwo]; exact hw) (by rw [htwo])
  exact ⟨t, ht, by rw [hframe], by rw [hframe, htwo], (hreg x).trans (by rw [if_pos rfl, htwo])⟩

theorem runHostOp_setKeyState {s : State} (h65 : s.cfg.arch.is65 = false) (k : BitVec 4) (pressed : Bool) :
    runHostOp (.setKeyState k.toNat pressed) s = .next (s.setKeyState k pressed) := by
  simp [runHostOp, h65, k.isLt]

/-- Settles O35: the three ways of R378, and what the latch holds after two releases. -/
theorem keyWaitReexecutesUntilRelease : Obligations.KeyWaitReexecutesUntilRelease := by
  intro x s
  refine ⟨exec_ldVxK_arm x, exec_ldVxK_take x, exec_ldVxK_wait x, fun j k h65 hw hne hj hk => ?_⟩
  obtain ⟨t, ht, hwait, hpc, hreg⟩ := exec_ldVxK_two_releases x hne hj hk hw
  refine ⟨_, _, t, runHostOp_setKeyState h65 j false,
    runHostOp_setKeyState (s := s.setKeyState j false) h65 k false, ht, hwait, hpc, ?_⟩
  rw [hreg, State.latchedKey]
  cases s.cfg.keyEdge <;> cases s.c8.kwValid <;> rfl

end Sys2Proof.Machine
end

section
/-! PROOF. The CHIP-8 instructions that move bytes between registers and memory at `I` (46_c8_base.md R380 to R382,
48_xo_ext.md R420, R421): each is a run of bus writes or bus reads at ascending addresses (45_c8_engine.md R327). -/

namespace Sys2Proof.Machine

-- The theorems one after the other: elaborated at once they ask for a thread each.
set_option Elab.async false

/-! ## The registers of a block -/

/-- Entry `k` of registers x to y. -/
theorem regsBetween_getD (x y : BitVec 4) (k : Nat)
    (h : k < max (x.toNat - y.toNat) (y.toNat - x.toNat) + 1) :
    (regsBetween x y).getD k 0 = BitVec.ofNat 4 (if x.toNat ≤ y.toNat then x.toNat + k else x.toNat - k) := by
  rw [List.getD_eq_getElem _ _ (by rw [regsBetween_length]; exact h)]
  unfold regsBetween
  split <;> simp

/-! ## `I` after a block (R381, R382) -/

/-- Under `Q_MEM_INC_I` the block moves `I` past itself; nothing else changes. -/
theorem State.advanceI_eq (s : State) (x : BitVec 4) :
    s.advanceI x = { s with c8 := { s.c8 with
      i := if s.cfg.qMemIncI then BitVec.ofNat 16 (s.c8.i.toNat + x.toNat + 1) else s.c8.i } } := by
  have hsum : s.c8.i + x.setWidth 16 + 1 = BitVec.ofNat 16 (s.c8.i.toNat + x.toNat + 1) := by
    rw [BitVec.ofNat_add, BitVec.ofNat_add, BitVec.ofNat_toNat, BitVec.ofNat_toNat, BitVec.setWidth_eq]
    rfl
  unfold State.advanceI
  split
  · rw [hsum]
    rfl
  · rfl

/-! ## Stores -/

/-- Storing registers is a run of bus writes: no write changes a register. -/
theorem State.storeRegs_eq_writeBytes (s : State) (a : Nat) (rs : List (BitVec 4)) :
    s.storeRegs a rs = s.writeBytes a (rs.map s.reg) := by
  induction rs generalizing s a with
  | nil => rfl
  | cons r rest ih =>
    have hreg : (s.memWrite a (s.reg r)).reg = s.reg := funext fun q => s.reg_memWrite a (s.reg r) q
    rw [State.storeRegs, ih, hreg]
    rfl

theorem State.storeRegs_frame (s : State) (a : Nat) (rs : List (BitVec 4)) :
    s.storeRegs a rs = { s with mem := (s.storeRegs a rs).mem, faultLog := (s.storeRegs a rs).faultLog,
                                busTrace := (s.storeRegs a rs).busTrace } := by
  rw [State.storeRegs_eq_writeBytes]
  exact s.writeBytes_frame a _

theorem appendsFaults_storeRegs (s : State) (a : Nat) (rs : List (BitVec 4)) :
    AppendsFaults s (s.storeRegs a rs) (rangeFaults s.cfg .outOfBoundsWrite a rs.length) := by
  rw [State.storeRegs_eq_writeBytes, ← List.length_map (f := s.reg)]
  exact appendsFaults_writeBytes s a _

/-- A byte of memory after registers 0 to x are stored. -/
theorem State.peek_storeRegs_regsTo (s : State) (a : Nat) (x : BitVec 4) (b : Nat) :
    (s.storeRegs a (regsTo x)).peek b =
      if a ≤ b ∧ b ≤ a + x.toNat ∧ b < s.cfg.memSize then s.c8.v.toList.getD (b - a) 0 else s.peek b := by
  have hle : b < a + (x.toNat + 1) ↔ b ≤ a + x.toNat := by omega
  rw [State.peek_storeRegs, regsTo_length]
  simp only [hle]
  refine ite_congr rfl (fun h => ?_) fun _ => rfl
  rw [regsTo_getD x _ (by omega), State.reg_ofNat s (by omega)]

/-- A byte of memory after registers x to y are stored. -/
theorem State.peek_storeRegs_regsBetween (s : State) (a : Nat) (x y : BitVec 4) (b : Nat) :
    (s.storeRegs a (regsBetween x y)).peek b =
      if a ≤ b ∧ b < a + (max (x.toNat - y.toNat) (y.toNat - x.toNat) + 1) ∧ b < s.cfg.memSize then
        s.c8.v.toList.getD (if x.toNat ≤ y.toNat then x.toNat + (b - a) else x.toNat - (b - a)) 0
      else s.peek b := by
  rw [State.peek_storeRegs, regsBetween_length]
  refine ite_congr rfl (fun h => ?_) fun _ => rfl
  rw [regsBetween_getD x y _ (by omega), State.reg_ofNat s (by split <;> omega)]

/-- The three digits of a byte (R380). -/
def decimalDigits (v : Nat) : List Byte :=
  [BitVec.ofNat 8 (v / 100), BitVec.ofNat 8 (v / 10 % 10), BitVec.ofNat 8 (v % 10)]

theorem exec_ldB (x : BitVec 4) (s : State) :
    exec (.ldB x) s = .next (s.writeBytes s.c8.i.toNat (decimalDigits (s.reg x).toNat)) := rfl

/-- Three bytes written from address `a`, address by address. -/
theorem State.peek_writeBytes_three (s : State) (a : Nat) (u v w : Byte) (b : Nat) :
    (s.writeBytes a [u, v, w]).peek b =
      if s.cfg.memSize ≤ b then s.peek b
      else if b = a then u else if b = a + 1 then v else if b = a + 2 then w else s.peek b := by
  rw [State.peek_writeBytes]
  by_cases hmem : s.cfg.memSize ≤ b
  · rw [if_pos hmem, if_neg (by omega)]
  rw [if_neg hmem]
  by_cases hrange : a ≤ b ∧ b < a + 3
  · obtain ⟨hle, hlt⟩ := hrange
    rw [if_pos ⟨hle, hlt, Nat.lt_of_not_le hmem⟩]
    obtain rfl | rfl | rfl : b = a ∨ b = a + 1 ∨ b = a + 2 := by omega
    all_goals simp
  · rw [if_neg fun ⟨hle, hlt, _⟩ => hrange ⟨hle, hlt⟩, if_neg (by omega), if_neg (by omega), if_neg (by omega)]

/-- Settles O36: the run of three writes. -/
theorem decimalDigitsAreStored : Obligations.DecimalDigitsAreStored := by
  intro x s a v
  exact ⟨_, exec_ldB x s, s.writeBytes_frame a _, s.peek_writeBytes_three a _ _ _,
    appendsFaults_writeBytes s a (decimalDigits v)⟩

/-- Settles O37: one run of writes each, and `I` past the block for `LD [I], Vx`. -/
theorem registerBlocksAreStored : Obligations.RegisterBlocksAreStored := by
  intro x y s a count
  refine ⟨⟨rfl, rfl⟩, ⟨(s.storeRegs a (regsTo x)).advanceI x, rfl, ?_, fun b => ?_, ?_⟩,
    s.storeRegs a (regsBetween x y), rfl, s.storeRegs_frame a _, s.peek_storeRegs_regsBetween a x y, ?_⟩
  · rw [State.advanceI_eq, State.storeRegs_frame]
  · rw [State.advanceI_eq]
    exact s.peek_storeRegs_regsTo a x b
  · rw [State.advanceI_eq, ← regsTo_length]
    exact appendsFaults_storeRegs s a (regsTo x)
  · have hlen : (regsBetween x y).length = count := regsBetween_length x y
    rw [← hlen]
    exact appendsFaults_storeRegs s a (regsBetween x y)

/-! ## Loads -/

/-- What the bus answers depends on the parameters and the memory alone. -/
theorem busReads_congr {s t : State} (hc : t.cfg = s.cfg) (hm : t.mem = s.mem) (a n : Nat) :
    busReads t a n = busReads s a n := by
  simp only [busReads, State.readVal_congr s t hc hm, hc]

/-- The record of an ascending run of reads: that of the lowest address, then that of the rest. -/
theorem busReads_succ (s : State) (a n : Nat) :
    busReads s a (n + 1) =
      .read a (s.readVal a) (!decide (a < s.cfg.memSize)) :: busReads s (a + 1) n := by
  simp only [busReads, List.range_succ_eq_map, List.map_cons, List.map_map, Nat.add_zero, Function.comp_def,
    Nat.succ_eq_add_one, Nat.add_assoc, Nat.add_comm 1]

theorem appendsFaults_afterRead (s : State) (a : Nat) :
    AppendsFaults s (s.afterRead a) (rangeFaults s.cfg .outOfBoundsRead a 1) := by
  rw [rangeFaults_one]
  by_cases h : a < s.cfg.memSize
  · rw [if_pos h]
    exact (AppendsFaults.refl s).of_log_eq (by rw [State.afterRead_faultLog, if_pos h])
  · rw [if_neg h]
    exact ⟨[s.faultRecord .outOfBoundsRead (some a)], by rw [State.afterRead_faultLog, if_neg h], rfl⟩

/-- A run of loads is read in ascending order. -/
theorem State.loadRegs_busTrace (s : State) (a : Nat) (rs : List (BitVec 4)) :
    (s.loadRegs a rs).busTrace = s.busTrace ++ busReads s a rs.length := by
  induction rs generalizing s a with
  | nil => simp [State.loadRegs, busReads]
  | cons r rest ih =>
    have hrest := busReads_congr (s := s) (t := (s.afterRead a).setReg r (s.readVal a)) (by simp) (by simp)
    rw [State.loadRegs, ih, hrest, State.setReg_busTrace, State.afterRead_busTrace, List.length_cons, busReads_succ,
      List.append_assoc, List.singleton_append]

/-- A run of loads appends one record for each address past the memory, in ascending order. -/
theorem appendsFaults_loadRegs (s : State) (a : Nat) (rs : List (BitVec 4)) :
    AppendsFaults s (s.loadRegs a rs) (rangeFaults s.cfg .outOfBoundsRead a rs.length) := by
  induction rs generalizing s a with
  | nil => exact AppendsFaults.refl s
  | cons r rest ih =>
    have hfirst : AppendsFaults s ((s.afterRead a).setReg r (s.readVal a)) (rangeFaults s.cfg .outOfBoundsRead a 1) :=
      (appendsFaults_afterRead s a).of_log_eq rfl
    have hrest := ih ((s.afterRead a).setReg r (s.readVal a)) (a + 1)
    rw [State.setReg_cfg, State.afterRead_cfg] at hrest
    rw [State.loadRegs, List.length_cons, rangeFaults_succ]
    exact hfirst.trans hrest

/-- A run of loads changes `V`, the fault log and the record of bus operations, and nothing else. -/
theorem State.loadRegs_frame (s : State) (a : Nat) (rs : List (BitVec 4)) :
    s.loadRegs a rs = { s with c8 := { s.c8 with v := (s.loadRegs a rs).c8.v },
                               faultLog := (s.loadRegs a rs).faultLog,
                               busTrace := s.busTrace ++ busReads s a rs.length } := by
  have hsame := s.loadRegs_same a rs
  rw [← State.loadRegs_busTrace]
  generalize s.loadRegs a rs = t at hsame ⊢
  obtain ⟨⟩ := t
  obtain ⟨rfl, rfl, rfl, hc8, rfl, rfl, rfl⟩ := hsame
  simpa using hc8

/-- A register after registers 0 to x are loaded. -/
theorem State.reg_loadRegs_regsTo (s : State) (a : Nat) (x r : BitVec 4) :
    (s.loadRegs a (regsTo x)).reg r = if r.toNat ≤ x.toNat then s.readVal (a + r.toNat) else s.reg r := by
  rw [State.reg_loadRegs s a _ (regsTo_nodup x)]
  refine ite_congr (propext (mem_regsTo x r)) (fun h => ?_) fun _ => rfl
  rw [idxOf_regsTo x r h]

/-- A register after registers x to y are loaded: its place in the block is its distance from `x`. -/
theorem State.reg_loadRegs_regsBetween (s : State) (a : Nat) (x y r : BitVec 4) :
    (s.loadRegs a (regsBetween x y)).reg r =
      if min x.toNat y.toNat ≤ r.toNat ∧ r.toNat ≤ max x.toNat y.toNat then
        s.readVal (a + max (r.toNat - x.toNat) (x.toNat - r.toNat))
      else s.reg r := by
  rw [State.reg_loadRegs s a _ (regsBetween_nodup x y)]
  refine ite_congr (propext (mem_regsBetween x y r)) (fun h => ?_) fun _ => rfl
  rw [idxOf_regsBetween x y r ((mem_regsBetween x y r).mpr h), Nat.max_comm]

/-- Settles O38: one run of reads each, and `I` past the block for `LD Vx, [I]`. -/
theorem registerBlocksAreLoaded : Obligations.RegisterBlocksAreLoaded := by
  intro x y s a count
  have hlen : (regsBetween x y).length = count := regsBetween_length x y
  refine ⟨⟨(s.loadRegs a (regsTo x)).advanceI x, rfl, ?_, fun r => ?_, ?_⟩,
    s.loadRegs a (regsBetween x y), rfl, ?_, s.reg_loadRegs_regsBetween a x y, ?_⟩
  · rw [State.advanceI_eq, State.loadRegs_frame, regsTo_length]
  · rw [State.advanceI_eq]
    exact s.reg_loadRegs_regsTo a x r
  · rw [State.advanceI_eq, ← regsTo_length]
    exact appendsFaults_loadRegs s a (regsTo x)
  · rw [← hlen]
    exact s.loadRegs_frame a (regsBetween x y)
  · rw [← hlen]
    exact appendsFaults_loadRegs s a (regsBetween x y)

end Sys2Proof.Machine
end

section
/-! PROOF. The display of the CHIP-8 family (47_c8_display.md R400 to R407). `CLS` and the scrolls tabulate a new grid.
A draw is a run of toggles of one plane of one logical pixel each: no pixel bit is toggled twice, because the sprite is no
wider and no higher than the logical grid, so the grid and the collision have a closed form over the old state. -/

namespace Sys2Proof.Machine

-- The theorems one after the other: elaborated at once they ask for a thread each.
set_option Elab.async false

/-! ## Clear (R400) -/

/-- `CLS` is one new grid on either architecture. -/
theorem exec_cls (s : State) :
    exec .cls s = .next (s.setFb (if s.cfg.arch = .xochip then
      FrameBuf.tabulate fun x y => s.c8.fb.cell x y &&& ~~~s.xo.plane else FrameBuf.blank)) := by
  change execCls s = _
  unfold execCls
  split <;> rfl

/-- A grid tabulated from its old cells; outside the grid both sides are 0. -/
theorem FrameBuf.cell_clearPlanes (fb : FrameBuf) (mask : BitVec 4) (x y : Nat) :
    (FrameBuf.tabulate fun a b => fb.cell a b &&& mask).cell x y = fb.cell x y &&& mask := by
  rw [FrameBuf.cell_tabulate]
  split
  · rfl
  next houtside =>
    rw [fb.cell_outside (by omega)]
    exact BitVec.zero_and.symm

/-- Settles O43: `CLS` is one new grid, tabulated by planes or blank. -/
theorem clearAffectsSelectedPlanes : Obligations.ClearAffectsSelectedPlanes := by
  intro s
  refine ⟨_, exec_cls s, rfl, fun x y => ?_⟩
  rw [State.setFb_c8]
  split
  · exact s.c8.fb.cell_clearPlanes _ x y
  · exact FrameBuf.cell_blank x y

/-! ## Scroll (R403 to R407) -/

theorem exec_scroll_row {n : BitVec 4} {s : State} {i : Instr} {dx dy : Int}
    (hrow : (i, dx, dy) ∈ ([(.scd n, 0, (n.toNat : Int)), (.scu n, 0, -(n.toNat : Int)), (.scr, 4, 0), (.scl, -4, 0)]
      : List (Instr × Int × Int))) : exec i s = .next (s.scroll dx dy) := by
  simp only [List.mem_cons, Prod.mk.injEq, List.not_mem_nil, or_false] at hrow
  obtain ⟨rfl, rfl, rfl⟩ | ⟨rfl, rfl, rfl⟩ | ⟨rfl, rfl, rfl⟩ | ⟨rfl, rfl, rfl⟩ := hrow
  case inl => rfl
  case inr.inl => rfl
  case inr.inr.inl => rfl
  case inr.inr.inr => rfl

theorem State.cell_scroll (s : State) (dx dy : Int) {cx cy : Nat} (hx : cx < 128) (hy : cy < 64) :
    (s.scroll dx dy).c8.fb.cell cx cy = s.scrolledPx dx dy (cx / s.pixelSide) (cy / s.pixelSide) := by
  rw [State.scroll, State.setFb_c8, FrameBuf.cell_tabulate, if_pos ⟨hx, hy⟩]

/-- Settles O45: the four are one scroll, which tabulates R403 cell by cell. -/
theorem scrollsMoveSelectedPlanes : Obligations.ScrollsMoveSelectedPlanes := by
  intro n s i dx dy _ hrow
  exact ⟨_, exec_scroll_row hrow, rfl, fun _ _ hx hy => s.cell_scroll dx dy hx hy⟩

/-! ## Masks of planes -/

/-- The mask of the planes that satisfy `f`, laid out as `drawMask` is. -/
def planeMask (f : Nat → Bool) : BitVec 4 :=
  BitVec.ofBool (f 3) ++ BitVec.ofBool (f 2) ++ BitVec.ofBool (f 1) ++ BitVec.ofBool (f 0)

theorem getLsbD_planeMask (f : Nat → Bool) {p : Nat} (hp : p < 4) : (planeMask f).getLsbD p = f p := by
  have hbits : ∀ b₀ b₁ b₂ b₃ : Bool, ∀ k : Fin 4,
      (BitVec.ofBool b₃ ++ BitVec.ofBool b₂ ++ BitVec.ofBool b₁ ++ BitVec.ofBool b₀).getLsbD k =
        [b₀, b₁, b₂, b₃].getD k false := by decide
  refine (hbits (f 0) (f 1) (f 2) (f 3) ⟨p, hp⟩).trans ?_
  obtain rfl | rfl | rfl | rfl : p = 0 ∨ p = 1 ∨ p = 2 ∨ p = 3 := by omega
  all_goals rfl

theorem and_planeMask_ne_zero_iff (v : BitVec 4) (f : Nat → Bool) :
    v &&& planeMask f ≠ 0 ↔ ∃ p, p < 4 ∧ f p = true ∧ v.getLsbD p = true := by
  constructor
  · intro hne
    by_contra hnone
    refine hne (BitVec.eq_of_getLsbD_eq fun p hp => ?_)
    have hoff : ¬ (f p = true ∧ v.getLsbD p = true) := fun hon => hnone ⟨p, hp, hon⟩
    rw [BitVec.getLsbD_and, getLsbD_planeMask f hp, Bool.and_comm]
    have hbit : (f p && v.getLsbD p) = false := Bool.eq_false_iff.mpr fun hon => hoff (Bool.and_eq_true_iff.mp hon)
    exact hbit.trans BitVec.getLsbD_zero.symm
  · rintro ⟨p, hp, hf, hv⟩ hzero
    have hbit : (v &&& planeMask f).getLsbD p = true := by
      rw [BitVec.getLsbD_and, getLsbD_planeMask f hp, hf, hv, Bool.and_self]
    rw [hzero] at hbit
    exact absurd hbit (by simp)

theorem planeMask_ne_zero_iff (f : Nat → Bool) : planeMask f ≠ 0 ↔ ∃ p, p < 4 ∧ f p = true := by
  have hall := and_planeMask_ne_zero_iff (BitVec.allOnes 4) f
  rw [BitVec.allOnes_and] at hall
  rw [hall]
  exact exists_congr fun p => and_congr_right fun hp => by
    rw [BitVec.getLsbD_allOnes, decide_eq_true hp, eq_self, and_true]

/-- One more plane in the mask. -/
theorem planeMask_insert {f g : Nat → Bool} {p : Nat} (hf : f p = false)
    (hg : ∀ q, g q = (f q || decide (q = p))) : planeMask g = planeMask f ^^^ (1#4 <<< p) := by
  refine BitVec.eq_of_getLsbD_eq fun q hq => ?_
  have hone : (1#4 <<< p).getLsbD q = decide (q = p) := by
    by_cases hlt : q < p
    · simp [hlt, Nat.ne_of_lt hlt]
    · have hsub : q - p = 0 ↔ q = p := by omega
      simp [hq, hlt, hsub]
  rw [BitVec.getLsbD_xor, getLsbD_planeMask g hq, getLsbD_planeMask f hq, hone, hg]
  by_cases hqp : q = p
  · rw [hqp, hf, Bool.false_or, Bool.false_xor]
  · simp [hqp]

/-! ## A pixel write, and what a draw leaves alone -/

/-- `SetPx` writes the cells of one logical pixel (R55). -/
theorem State.cell_setPx (s : State) {px py : Nat} (v : BitVec 4) (hx : px < s.logicalWidth)
    (hy : py < s.logicalHeight) (cx cy : Nat) :
    (s.setPx px py v).c8.fb.cell cx cy =
      if cx / s.pixelSide = px ∧ cy / s.pixelSide = py then v else s.c8.fb.cell cx cy := by
  obtain ⟨hw, hh⟩ := s.logical_le
  simp only [State.setPx, State.updC8_c8, FrameBuf.cell_setBlock]
  refine ite_congr (propext ?_) (fun _ => rfl) fun _ => rfl
  rcases s.pixelSide_cases with hk | hk <;> rw [hk] at hw hh ⊢ <;> omega

theorem SameButFb.pixelSide {s t : State} (h : SameButFb s t) : t.pixelSide = s.pixelSide := by
  obtain ⟨hcfg, -, -, -, hxo, -⟩ := h
  exact State.pixelSide_congr s t hcfg hxo

theorem SameButFb.logicalWidth {s t : State} (h : SameButFb s t) : t.logicalWidth = s.logicalWidth := by
  obtain ⟨hcfg, -, -, -, hxo, -⟩ := h
  exact State.logicalWidth_congr s t hcfg hxo

theorem SameButFb.logicalHeight {s t : State} (h : SameButFb s t) : t.logicalHeight = s.logicalHeight := by
  obtain ⟨hcfg, -, -, -, hxo, -⟩ := h
  exact State.logicalHeight_congr s t hcfg hxo

theorem SameButFb.readVal {s t : State} (h : SameButFb s t) (a : Nat) : t.readVal a = s.readVal a := by
  obtain ⟨hcfg, hmem, -⟩ := h
  exact State.readVal_congr s t hcfg hmem a

theorem SameButFb.busReads {s t : State} (h : SameButFb s t) (a n : Nat) : busReads t a n = busReads s a n := by
  obtain ⟨hcfg, hmem, -⟩ := h
  exact busReads_congr hcfg hmem a n

theorem SameButFb.reg {s t : State} (h : SameButFb s t) (r : BitVec 4) : t.reg r = s.reg r := by
  obtain ⟨-, -, -, hc8, -⟩ := h
  exact State.reg_congr s t (by rw [hc8]) r

/-- What differs after a draw and the write of a register. -/
theorem SameButFb.setReg_eq {s t : State} (h : SameButFb s t) (r : BitVec 4) (b : Byte) :
    t.setReg r b = { s with c8 := { s.c8 with v := (t.setReg r b).c8.v, fb := (t.setReg r b).c8.fb },
                            faultLog := (t.setReg r b).faultLog, busTrace := (t.setReg r b).busTrace } := by
  obtain ⟨cfg, mem, m65, c8, xo, log, trace, queue, draws⟩ := t
  obtain ⟨rfl, rfl, rfl, hc8, rfl, rfl, rfl⟩ := h
  simp only [State.setReg, State.updC8, State.mk.injEq, true_and, and_true]
  exact congrArg (fun c : CpuC8 => { c with v := c8.v.set r.toNat b r.isLt, fb := c8.fb }) hc8

/-! ## A run of toggles -/

/-- One toggle of a draw: the plane, and the column and row of the logical pixel. -/
abbrev PixelBit := Nat × Nat × Nat

/-- The planes of logical pixel (px, py) in a list of toggles. -/
def toggledPlanes (L : List PixelBit) (px py : Nat) : BitVec 4 := planeMask fun p => decide ((p, px, py) ∈ L)

theorem toggledPlanes_append_same {L : List PixelBit} {p px py : Nat} (hnew : (p, px, py) ∉ L) :
    toggledPlanes (L ++ [(p, px, py)]) px py = toggledPlanes L px py ^^^ (1#4 <<< p) :=
  planeMask_insert (by simpa using hnew) fun q => by simp

theorem toggledPlanes_append_ne_zero (L : List PixelBit) {p : Nat} (hp : p < 4) (px py : Nat) :
    toggledPlanes (L ++ [(p, px, py)]) px py ≠ 0 :=
  (planeMask_ne_zero_iff _).mpr ⟨p, hp, by simp⟩

theorem toggledPlanes_append_ne (L : List PixelBit) {p qx qy px py : Nat} (hne : ¬ (px = qx ∧ py = qy)) :
    toggledPlanes (L ++ [(p, qx, qy)]) px py = toggledPlanes L px py := by
  simp [toggledPlanes, hne]

/-- A draw under way from `s`, after the distinct toggles of `L`: what the grid holds, and whether a set bit was among
those toggled. -/
structure Toggled (s : State) (L : List PixelBit) (sc : State × Bool) : Prop where
  frame : SameButFb s sc.1
  cell : ∀ cx cy, sc.1.c8.fb.cell cx cy =
    if toggledPlanes L (cx / s.pixelSide) (cy / s.pixelSide) ≠ 0 then
      s.getPx (cx / s.pixelSide) (cy / s.pixelSide) ^^^ toggledPlanes L (cx / s.pixelSide) (cy / s.pixelSide)
    else s.c8.fb.cell cx cy
  collision : sc.2 = true ↔ ∃ p px py, (p, px, py) ∈ L ∧ (s.getPx px py).getLsbD p = true

theorem Toggled.start (s : State) : Toggled s [] (s, false) where
  frame := SameButFb.refl s
  cell _ _ := by simp [toggledPlanes, planeMask]
  collision := by simp

/-- A bus read leaves the grid alone. -/
theorem Toggled.afterRead {s : State} {L : List PixelBit} {sc : State × Bool} (h : Toggled s L sc) (a : Nat) :
    Toggled s L (sc.1.afterRead a, sc.2) where
  frame := h.frame.trans (sameButFb_afterRead sc.1 a)
  cell cx cy := by rw [State.afterRead_c8, h.cell]
  collision := h.collision

theorem Toggled.getPx {s : State} {L : List PixelBit} {sc : State × Bool} (h : Toggled s L sc) (px py : Nat) :
    sc.1.getPx px py = s.getPx px py ^^^ toggledPlanes L px py := by
  have hpos : 0 < s.pixelSide := by rcases s.pixelSide_cases with hk | hk <;> omega
  rw [State.getPx, h.frame.pixelSide, h.cell, Nat.mul_div_cancel _ hpos, Nat.mul_div_cancel _ hpos]
  split
  · rfl
  next hnone => rw [not_not.mp hnone]; exact BitVec.xor_zero.symm

/-- The bit toggled is still the old one, since it was not toggled before. -/
theorem toggled_plotBit {s : State} {L : List PixelBit} {sc : State × Bool} (h : Toggled s L sc) {p px py : Nat}
    (hp : p < 4) (hx : px < s.logicalWidth) (hy : py < s.logicalHeight) (hnew : (p, px, py) ∉ L) :
    Toggled s (L ++ [(p, px, py)]) (plotBit p px py sc) where
  frame := h.frame.trans (sameButFb_setPx ..)
  cell cx cy := by
    rw [plotBit, State.cell_setPx _ _ (h.frame.logicalWidth ▸ hx) (h.frame.logicalHeight ▸ hy), h.frame.pixelSide]
    by_cases hblock : cx / s.pixelSide = px ∧ cy / s.pixelSide = py
    · obtain ⟨rfl, rfl⟩ := hblock
      rw [if_pos ⟨rfl, rfl⟩, if_pos (toggledPlanes_append_ne_zero L hp _ _), h.getPx, toggledPlanes_append_same hnew, BitVec.xor_assoc]
    · rw [if_neg hblock, h.cell, toggledPlanes_append_ne L hblock]
  collision := by
    have hold : (sc.1.getPx px py).getLsbD p = (s.getPx px py).getLsbD p := by
      rw [h.getPx, BitVec.getLsbD_xor, toggledPlanes, getLsbD_planeMask _ hp, decide_eq_false hnew, Bool.xor_false]
    rw [plotBit, Bool.or_eq_true, h.collision, hold]
    constructor
    · rintro (⟨q, qx, qy, hmem, hset⟩ | hset)
      · exact ⟨q, qx, qy, List.mem_append_left _ hmem, hset⟩
      · exact ⟨p, px, py, List.mem_append_right _ (List.mem_singleton_self _), hset⟩
    · rintro ⟨q, qx, qy, hmem, hset⟩
      rcases List.mem_append.mp hmem with hmem | hmem
      · exact .inl ⟨q, qx, qy, hmem, hset⟩
      · obtain ⟨rfl, rfl, rfl⟩ : q = p ∧ qx = px ∧ qy = py := by simpa using hmem
        exact .inr hset

/-! ## The toggles of a sprite -/

/-- The toggles of one sprite byte. -/
def State.byteToggles (s : State) (p x0 py : Nat) (byte : Byte) (bs : List Nat) : List PixelBit :=
  (bs.filter fun b => byte.getLsbD (7 - b)).map fun b => (p, (x0 + b) % s.logicalWidth, py)

/-- The toggles of sprite bytes, each with its address. -/
def State.spriteToggles (s : State) (x0 y0 : Nat) (bytes : List (SpriteByte × Nat)) : List PixelBit :=
  bytes.flatMap fun ((p, r, c), a) =>
    s.byteToggles p (x0 + 8 * c) ((y0 + r) % s.logicalHeight) (s.readVal a) (List.range 8)

theorem toggled_plotByte {s : State} {L : List PixelBit} {sc : State × Bool} (h : Toggled s L sc) {p x0 py : Nat}
    (hp : p < 4) (hy : py < s.logicalHeight) (byte : Byte) {bs : List Nat}
    (hnew : (L ++ s.byteToggles p x0 py byte bs).Nodup) :
    Toggled s (L ++ s.byteToggles p x0 py byte bs) (plotByte p x0 py byte bs sc) := by
  induction bs generalizing L sc with
  | nil => simpa [State.byteToggles, plotByte] using h
  | cons b rest ih =>
    rw [plotByte, h.frame.logicalWidth]
    by_cases hbit : byte.getLsbD (7 - b) = true
    · have hcons : s.byteToggles p x0 py byte (b :: rest) =
          (p, (x0 + b) % s.logicalWidth, py) :: s.byteToggles p x0 py byte rest := by
        simp [State.byteToggles, hbit]
      rw [hcons, List.append_cons] at hnew ⊢
      rw [if_pos hbit]
      refine ih (toggled_plotBit h hp (Nat.mod_lt _ (logicalWidth_pos s)) hy fun hmem => ?_) hnew
      exact List.disjoint_of_nodup_append (List.Nodup.of_append_left hnew) hmem (List.mem_singleton_self _)
    · have hskip : s.byteToggles p x0 py byte (b :: rest) = s.byteToggles p x0 py byte rest := by
        simp [State.byteToggles, hbit]
      rw [hskip] at hnew ⊢
      rw [if_neg hbit]
      exact ih h hnew

theorem toggled_drawBytes {s : State} {L : List PixelBit} {sc : State × Bool} (h : Toggled s L sc) (x0 y0 a : Nat)
    {bs : List SpriteByte} (hp : ∀ b ∈ bs, b.1 < 4) (hnew : (L ++ s.spriteToggles x0 y0 (bs.zipIdx a)).Nodup) :
    Toggled s (L ++ s.spriteToggles x0 y0 (bs.zipIdx a)) (drawBytes x0 y0 a bs sc) := by
  induction bs generalizing L sc a with
  | nil => simpa [State.spriteToggles, drawBytes] using h
  | cons b rest ih =>
    obtain ⟨p, r, c⟩ := b
    have hcons : s.spriteToggles x0 y0 (((p, r, c) :: rest).zipIdx a) =
        s.byteToggles p (x0 + 8 * c) ((y0 + r) % s.logicalHeight) (s.readVal a) (List.range 8) ++
          s.spriteToggles x0 y0 (rest.zipIdx (a + 1)) := by
      simp [State.spriteToggles, List.zipIdx_cons]
    rw [hcons, ← List.append_assoc] at hnew ⊢
    rw [drawBytes, h.frame.logicalHeight, h.frame.readVal]
    refine ih (toggled_plotByte (h.afterRead a) (hp (p, r, c) (List.mem_cons_self ..)) ?_ _
      (List.Nodup.of_append_left hnew)) _ (fun b hb => hp b (List.mem_cons_of_mem _ hb)) hnew
    exact Nat.mod_lt _ (logicalHeight_pos s)

/-! ## Where a sprite lands -/

theorem mod_of_lt_two_mul {a W : Nat} (ha : a < 2 * W) : a % W = if a < W then a else a - W := by
  split
  next hlt => exact Nat.mod_eq_of_lt hlt
  next hge => rw [Nat.mod_eq_sub_mod (by omega), Nat.mod_eq_of_lt (by omega)]

/-- A coordinate is `k` past `x0`, wrapping, when the way back from it to `x0` is `k`. -/
theorem wrap_eq_iff {W x0 k px : Nat} (hx : x0 < W) (hk : k < W) :
    (x0 + k) % W = px ↔ px < W ∧ (px + W - x0) % W = k := by
  rw [mod_of_lt_two_mul (by omega)]
  constructor
  · intro h
    have hpx : px < W := by split at h <;> omega
    rw [mod_of_lt_two_mul (by omega)]
    refine ⟨hpx, ?_⟩
    split at h <;> split <;> omega
  · rintro ⟨hpx, h⟩
    rw [mod_of_lt_two_mul (by omega)] at h
    split at h <;> split <;> omega

theorem State.le_logicalWidth (s : State) : 64 ≤ s.logicalWidth := by
  unfold State.logicalWidth; split <;> omega

theorem State.le_logicalHeight (s : State) : 32 ≤ s.logicalHeight := by
  unfold State.logicalHeight; split <;> omega

/-- The plane, row and byte of the row of a toggle can be read off it. -/
theorem mem_byteToggles {s : State} {p x0 y0 r c : Nat} {byte : Byte} (hx : x0 < s.logicalWidth)
    (hy : y0 < s.logicalHeight) (hr : r < 16) (hc : c < 2) (q px py : Nat) :
    (q, px, py) ∈ s.byteToggles p (x0 + 8 * c) ((y0 + r) % s.logicalHeight) byte (List.range 8) ↔
      px < s.logicalWidth ∧ py < s.logicalHeight ∧ q = p ∧
      (py + s.logicalHeight - y0) % s.logicalHeight = r ∧
      (px + s.logicalWidth - x0) % s.logicalWidth / 8 = c ∧
      byte.getLsbD (7 - (px + s.logicalWidth - x0) % s.logicalWidth % 8) = true := by
  have hwidth := s.le_logicalWidth
  have hheight := s.le_logicalHeight
  have hrow := wrap_eq_iff hy (k := r) (px := py) (by omega)
  have hcol : ∀ b, b < 8 → ((x0 + 8 * c + b) % s.logicalWidth = px ↔
      px < s.logicalWidth ∧ (px + s.logicalWidth - x0) % s.logicalWidth = 8 * c + b) := fun b hb => by
    rw [Nat.add_assoc]
    exact wrap_eq_iff hx (by omega)
  simp only [State.byteToggles, List.mem_map, List.mem_filter, List.mem_range, Prod.mk.injEq]
  generalize (px + s.logicalWidth - x0) % s.logicalWidth = dx at hcol ⊢
  constructor
  · rintro ⟨b, ⟨hb, hbit⟩, rfl, hpx, hpy⟩
    obtain ⟨hpx, rfl⟩ := (hcol b hb).mp hpx
    obtain ⟨hpy, hdy⟩ := hrow.mp hpy
    have hmod : (8 * c + b) % 8 = b := by omega
    exact ⟨hpx, hpy, rfl, hdy, by omega, by rwa [hmod]⟩
  · rintro ⟨hpx, hpy, rfl, hdy, hdiv, hbit⟩
    exact ⟨dx % 8, ⟨by omega, hbit⟩, rfl, (hcol _ (by omega)).mpr ⟨hpx, by omega⟩, hrow.mpr ⟨hpy, hdy⟩⟩

theorem byteToggles_nodup (s : State) (p x0 py : Nat) (byte : Byte) :
    (s.byteToggles p x0 py byte (List.range 8)).Nodup := by
  have hwidth := s.le_logicalWidth
  refine (List.nodup_range.filter _).map_on fun b hb b' hb' heq => ?_
  have hlt : b < 8 := List.mem_range.mp (List.mem_of_mem_filter hb)
  have hlt' : b' < 8 := List.mem_range.mp (List.mem_of_mem_filter hb')
  obtain ⟨-, hmod, -⟩ : p = p ∧ (x0 + b) % s.logicalWidth = (x0 + b') % s.logicalWidth ∧ py = py := by simpa using heq
  have hcongr : b ≡ b' [MOD s.logicalWidth] := Nat.ModEq.add_left_cancel' x0 hmod
  exact hcongr.eq_of_lt_of_lt (by omega) (by omega)

/-! ## The addresses of the sprite bytes -/

/-- The places of the entries of blocks of one length, laid out one after the other. -/
theorem mem_zipIdx_flatMap {α β : Type} {l : List α} {f : α → List β} {m : Nat} (hf : ∀ x ∈ l, (f x).length = m)
    (a : Nat) (y : β) (i : Nat) :
    (y, i) ∈ (l.flatMap f).zipIdx a ↔ ∃ k x, l[k]? = some x ∧ (y, i) ∈ (f x).zipIdx (a + k * m) := by
  induction l generalizing a with
  | nil => simp
  | cons x rest ih =>
    have hhead : (f x).length = m := hf x (List.mem_cons_self ..)
    have hnext : ∀ k, a + (k + 1) * m = a + m + k * m := fun k => by rw [Nat.succ_mul]; omega
    rw [List.flatMap_cons, List.zipIdx_append, List.mem_append, hhead,
      ih (fun z hz => hf z (List.mem_cons_of_mem _ hz)) (a + m),
      ← Nat.or_exists_add_one (p := fun k => ∃ z, (x :: rest)[k]? = some z ∧ (y, i) ∈ (f z).zipIdx (a + k * m))]
    simp [hnext]

/-- The place of an entry of an ascending list is the number of entries below it. -/
theorem getElem?_of_ascending {l : List Nat} (hl : l.Pairwise (· < ·)) (k p : Nat) :
    l[k]? = some p ↔ p ∈ l ∧ k = (l.filter fun q => decide (q < p)).length := by
  induction l generalizing k with
  | nil => simp
  | cons q rest ih =>
    obtain ⟨hq, hrest⟩ := List.pairwise_cons.mp hl
    by_cases hlt : q < p
    · have hne : p ≠ q := by omega
      cases k with
      | zero => simp [hlt, hne.symm]
      | succ k => simp [hlt, hne, ih hrest]
    · have hnone : (rest.filter fun q' => decide (q' < p)) = [] :=
        List.filter_eq_nil_iff.mpr fun q' hq' hbelow => hlt ((hq q' hq').trans (of_decide_eq_true hbelow))
      have hnot : p ∉ rest := fun hmem => hlt (hq p hmem)
      cases k with
      | zero => simp [hlt, hnone, hnot, eq_comm]
      | succ k => simp [hlt, hnone, ih hrest, hnot]

theorem State.drawPlanes_ascending (s : State) : s.drawPlanes.Pairwise (· < ·) := by
  unfold State.drawPlanes
  split
  · exact List.pairwise_lt_range.filter _
  · exact List.pairwise_singleton _ _

theorem State.lt_four_of_mem_drawPlanes {s : State} {p : Nat} (hp : p ∈ s.drawPlanes) : p < 4 := by
  unfold State.drawPlanes at hp
  split at hp
  · exact List.mem_range.mp (List.mem_of_mem_filter hp)
  · rw [List.mem_singleton.mp hp]; decide

theorem getElem?_range_eq_some_iff (n k r : Nat) : (List.range n)[k]? = some r ↔ r < n ∧ k = r := by
  simp only [List.getElem?_eq_some_iff, List.length_range, List.getElem_range, exists_prop]
  omega

theorem mem_zipIdx_rowBytes (p r bpr a : Nat) (b : SpriteByte) (i : Nat) :
    (b, i) ∈ ((List.range bpr).map fun c => (p, r, c)).zipIdx a ↔ ∃ c, c < bpr ∧ b = (p, r, c) ∧ i = a + c := by
  simp only [List.mk_mem_zipIdx_iff_le_and_getElem?_sub, List.getElem?_map, Option.map_eq_some_iff,
    getElem?_range_eq_some_iff]
  constructor
  · rintro ⟨hle, c, ⟨hc, hidx⟩, rfl⟩
    exact ⟨c, hc, rfl, by omega⟩
  · rintro ⟨c, hc, rfl, rfl⟩
    exact ⟨by omega, c, ⟨hc, by omega⟩, rfl⟩

theorem mem_zipIdx_planeBytes (p rows bpr a : Nat) (b : SpriteByte) (i : Nat) :
    (b, i) ∈ ((List.range rows).flatMap fun r => (List.range bpr).map fun c => (p, r, c)).zipIdx a ↔
      ∃ r c, r < rows ∧ c < bpr ∧ b = (p, r, c) ∧ i = a + r * bpr + c := by
  simp only [mem_zipIdx_flatMap (m := bpr) (f := fun r => (List.range bpr).map fun c => (p, r, c)) (by simp),
    mem_zipIdx_rowBytes, getElem?_range_eq_some_iff]
  constructor
  · rintro ⟨_, r, ⟨hr, rfl⟩, c, hc, rfl, rfl⟩
    exact ⟨_, c, hr, hc, rfl, rfl⟩
  · rintro ⟨r, c, hr, hc, rfl, rfl⟩
    exact ⟨r, r, ⟨hr, rfl⟩, c, hc, rfl, rfl⟩

/-- The address of each sprite byte: plane after plane, row after row (R401). -/
theorem mem_zipIdx_spriteBytes {planes : List Nat} (hplanes : planes.Pairwise (· < ·)) (rows bpr a p r c i : Nat) :
    ((p, r, c), i) ∈ (spriteBytes planes rows bpr).zipIdx a ↔
      p ∈ planes ∧ r < rows ∧ c < bpr ∧
      i = a + (planes.filter fun q => decide (q < p)).length * (rows * bpr) + r * bpr + c := by
  rw [spriteBytes, mem_zipIdx_flatMap (m := rows * bpr) (by simp)]
  simp only [mem_zipIdx_planeBytes, getElem?_of_ascending hplanes]
  constructor
  · rintro ⟨_, _, ⟨hp, rfl⟩, _, _, hr, hc, heq, rfl⟩
    cases heq
    exact ⟨hp, hr, hc, rfl⟩
  · rintro ⟨hp, hr, hc, rfl⟩
    exact ⟨_, p, ⟨hp, rfl⟩, r, c, hr, hc, rfl, rfl⟩

theorem spriteBytes_length (planes : List Nat) (rows bpr : Nat) :
    (spriteBytes planes rows bpr).length = planes.length * (rows * bpr) := by
  simp [spriteBytes]

/-! ## The toggles of `DRW` -/

/-- The sprite bytes of `DRW`, each with its address. -/
def State.drawnBytes (s : State) (n : BitVec 4) : List (SpriteByte × Nat) :=
  (spriteBytes s.drawPlanes (s.spriteShape n).1 (s.spriteShape n).2).zipIdx s.c8.i.toNat

/-- The toggles of `DRW`, in the order in which they are made. -/
def State.drawnToggles (s : State) (x y n : BitVec 4) : List PixelBit :=
  s.spriteToggles ((s.reg x).toNat % s.logicalWidth) ((s.reg y).toNat % s.logicalHeight) (s.drawnBytes n)

theorem State.spriteShape_le (s : State) (n : BitVec 4) : (s.spriteShape n).1 ≤ 16 ∧ (s.spriteShape n).2 ≤ 2 := by
  unfold State.spriteShape
  split <;> constructor <;> simp only <;> omega

theorem mem_drawnBytes {s : State} {n : BitVec 4} {p r c a : Nat} :
    ((p, r, c), a) ∈ s.drawnBytes n ↔
      p ∈ s.drawPlanes ∧ r < (s.spriteShape n).1 ∧ c < (s.spriteShape n).2 ∧
      a = s.c8.i.toNat + s.planesBelow p * ((s.spriteShape n).1 * (s.spriteShape n).2) + r * (s.spriteShape n).2 + c :=
  mem_zipIdx_spriteBytes s.drawPlanes_ascending ..

/-- A sprite byte toggles the pixel bits whose way back to the sprite's corner ends in that byte. -/
theorem mem_drawnByte_toggles {s : State} {x y n : BitVec 4} {p r c a : Nat} (hmem : ((p, r, c), a) ∈ s.drawnBytes n)
    (q px py : Nat) :
    (q, px, py) ∈ s.byteToggles p ((s.reg x).toNat % s.logicalWidth + 8 * c)
        (((s.reg y).toNat % s.logicalHeight + r) % s.logicalHeight) (s.readVal a) (List.range 8) ↔
      px < s.logicalWidth ∧ py < s.logicalHeight ∧ q = p ∧
      (py + s.logicalHeight - (s.reg y).toNat % s.logicalHeight) % s.logicalHeight = r ∧
      (px + s.logicalWidth - (s.reg x).toNat % s.logicalWidth) % s.logicalWidth / 8 = c ∧
      (s.readVal a).getLsbD
        (7 - (px + s.logicalWidth - (s.reg x).toNat % s.logicalWidth) % s.logicalWidth % 8) = true := by
  obtain ⟨hrows, hbpr⟩ := s.spriteShape_le n
  obtain ⟨-, hr, hc, -⟩ := mem_drawnBytes.mp hmem
  exact mem_byteToggles (Nat.mod_lt _ (logicalWidth_pos s)) (Nat.mod_lt _ (logicalHeight_pos s)) (by omega) (by omega)
    q px py

/-- The toggles of `DRW` are those that `drawToggles` names, each on a logical pixel. -/
theorem mem_drawnToggles {s : State} {x y n : BitVec 4} {p px py : Nat} :
    (p, px, py) ∈ s.drawnToggles x y n ↔
      px < s.logicalWidth ∧ py < s.logicalHeight ∧ s.drawToggles x y n p px py = true := by
  simp only [State.drawnToggles, State.spriteToggles, List.mem_flatMap, State.drawToggles, State.spritePixel,
    Bool.and_eq_true, decide_eq_true_eq]
  constructor
  · rintro ⟨⟨⟨q, r, c⟩, a⟩, hbyte, hmem⟩
    obtain ⟨hpx, hpy, rfl, rfl, rfl, hbit⟩ := (mem_drawnByte_toggles hbyte _ _ _).mp hmem
    obtain ⟨hp, hr, hc, rfl⟩ := mem_drawnBytes.mp hbyte
    exact ⟨hpx, hpy, hp, ⟨by omega, hr⟩, hbit⟩
  · rintro ⟨hpx, hpy, hp, ⟨hc, hr⟩, hbit⟩
    have hbyte := mem_drawnBytes.mpr ⟨hp, hr, Nat.div_lt_of_lt_mul hc, rfl⟩
    exact ⟨_, hbyte, (mem_drawnByte_toggles hbyte _ _ _).mpr ⟨hpx, hpy, rfl, rfl, rfl, hbit⟩⟩

/-- No pixel bit is toggled twice: the sprite is no wider and no higher than the grid, and a toggle names its byte. -/
theorem drawnToggles_nodup (s : State) (x y n : BitVec 4) : (s.drawnToggles x y n).Nodup := by
  have hbytes : (s.drawnBytes n).Nodup := .of_map Prod.snd (by
    rw [State.drawnBytes, List.zipIdx_map_snd]
    exact List.nodup_range')
  refine List.nodup_flatMap.mpr ⟨fun _ _ => byteToggles_nodup .., hbytes.pairwise_of_forall_ne ?_⟩
  rintro ⟨⟨p, r, c⟩, a⟩ h ⟨⟨p', r', c'⟩, a'⟩ h' hne ⟨q, px, py⟩ hmem hmem'
  obtain ⟨-, -, rfl, rfl, rfl, -⟩ := (mem_drawnByte_toggles h _ _ _).mp hmem
  obtain ⟨-, -, rfl, rfl, rfl, -⟩ := (mem_drawnByte_toggles h' _ _ _).mp hmem'
  obtain ⟨-, -, -, rfl⟩ := mem_drawnBytes.mp h
  obtain ⟨-, -, -, rfl⟩ := mem_drawnBytes.mp h'
  exact hne rfl

theorem State.drawMask_eq_planeMask (s : State) (x y n : BitVec 4) (px py : Nat) :
    s.drawMask x y n px py = planeMask fun p => s.drawToggles x y n p px py := rfl

theorem toggledPlanes_drawnToggles (s : State) (x y n : BitVec 4) (px py : Nat) :
    toggledPlanes (s.drawnToggles x y n) px py =
      if px < s.logicalWidth ∧ py < s.logicalHeight then s.drawMask x y n px py else 0 := by
  simp only [toggledPlanes, mem_drawnToggles]
  split
  next hin => simp [State.drawMask_eq_planeMask, hin]
  next hout => simp [← and_assoc, hout, planeMask]

theorem toggled_drawSprite (s : State) (x y n : BitVec 4) : Toggled s (s.drawnToggles x y n) (s.drawSprite x y n) :=
  toggled_drawBytes (Toggled.start s) _ _ _ (fun _ hb => s.lt_four_of_mem_drawPlanes (mem_spriteBytes_plane hb))
    (drawnToggles_nodup s x y n)

/-! ## The reads of a draw -/

theorem plotByte_sameLogs (p x0 py : Nat) (byte : Byte) (bs : List Nat) (sc : State × Bool) :
    (plotByte p x0 py byte bs sc).1.busTrace = sc.1.busTrace ∧
      (plotByte p x0 py byte bs sc).1.faultLog = sc.1.faultLog := by
  induction bs generalizing sc with
  | nil => exact ⟨rfl, rfl⟩
  | cons b rest ih =>
    rw [plotByte]
    split
    · exact ih (plotBit ..)
    · exact ih sc

/-- A run of sprite bytes is read once each, in ascending order. -/
theorem drawBytes_reads (x0 y0 a : Nat) (bs : List SpriteByte) (sc : State × Bool) :
    (drawBytes x0 y0 a bs sc).1.busTrace = sc.1.busTrace ++ busReads sc.1 a bs.length ∧
      AppendsFaults sc.1 (drawBytes x0 y0 a bs sc).1 (rangeFaults sc.1.cfg .outOfBoundsRead a bs.length) := by
  induction bs generalizing a sc with
  | nil => exact ⟨by simp [drawBytes, busReads], AppendsFaults.refl sc.1⟩
  | cons b rest ih =>
    obtain ⟨p, r, c⟩ := b
    rw [drawBytes, List.length_cons, busReads_succ, rangeFaults_succ]
    generalize hsc' : plotByte p (x0 + 8 * c) ((y0 + r) % sc.1.logicalHeight) (sc.1.readVal a) (List.range 8)
      (sc.1.afterRead a, sc.2) = sc'
    have hsame : SameButFb sc.1 sc'.1 := hsc' ▸ (sameButFb_afterRead sc.1 a).trans (sameButFb_plotByte ..)
    obtain ⟨htrace, hlog⟩ : sc'.1.busTrace = (sc.1.afterRead a).busTrace ∧
        sc'.1.faultLog = (sc.1.afterRead a).faultLog :=
      hsc' ▸ plotByte_sameLogs ..
    obtain ⟨hrest, hfaults⟩ := ih (a + 1) sc'
    rw [hsame.1] at hfaults
    refine ⟨?_, ((appendsFaults_afterRead sc.1 a).of_log_eq hlog).trans hfaults⟩
    rw [hrest, htrace, State.afterRead_busTrace, hsame.busReads, List.append_assoc, List.singleton_append]

/-! ## `DRW` -/

theorem exec_drw (x y n : BitVec 4) (s : State) :
    exec (.drw x y n) s = .next ((s.drawSprite x y n).1.setReg 15 (flagByte (s.drawSprite x y n).2)) := rfl

theorem flagByte_cases (b : Bool) : flagByte b = 0 ∨ flagByte b = 1 := by cases b <;> simp [flagByte]

theorem flagByte_eq_one_iff (b : Bool) : flagByte b = 1 ↔ b = true := by cases b <;> simp [flagByte]

theorem drawnToggles_collide_iff (s : State) (x y n : BitVec 4) :
    (∃ p px py, (p, px, py) ∈ s.drawnToggles x y n ∧ (s.getPx px py).getLsbD p = true) ↔
      ∃ px py, px < s.logicalWidth ∧ py < s.logicalHeight ∧ s.getPx px py &&& s.drawMask x y n px py ≠ 0 := by
  simp only [State.drawMask_eq_planeMask, and_planeMask_ne_zero_iff, mem_drawnToggles]
  constructor
  · rintro ⟨p, px, py, ⟨hpx, hpy, ht⟩, hset⟩
    have hp : p < 4 := s.lt_four_of_mem_drawPlanes (of_decide_eq_true (Bool.and_eq_true_iff.mp ht).1)
    exact ⟨px, py, hpx, hpy, p, hp, ht, hset⟩
  · rintro ⟨px, py, hpx, hpy, p, -, ht, hset⟩
    exact ⟨p, px, py, ⟨hpx, hpy, ht⟩, hset⟩

/-- The grid after a draw, in the words of R401: the covered planes of the old pixel toggled. -/
theorem cell_drawSprite (s : State) (x y n : BitVec 4) (cx cy : Nat) :
    (s.drawSprite x y n).1.c8.fb.cell cx cy =
      if cx / s.pixelSide < s.logicalWidth ∧ cy / s.pixelSide < s.logicalHeight ∧
          s.drawMask x y n (cx / s.pixelSide) (cy / s.pixelSide) ≠ 0 then
        s.getPx (cx / s.pixelSide) (cy / s.pixelSide) ^^^ s.drawMask x y n (cx / s.pixelSide) (cy / s.pixelSide)
      else s.c8.fb.cell cx cy := by
  rw [(toggled_drawSprite s x y n).cell, toggledPlanes_drawnToggles]
  by_cases hin : cx / s.pixelSide < s.logicalWidth ∧ cy / s.pixelSide < s.logicalHeight
  · simp only [hin, and_self, if_true, true_and]
  · rw [if_neg hin, if_neg fun hne => hne rfl, if_neg fun ⟨hpx, hpy, _⟩ => hin ⟨hpx, hpy⟩]

theorem drawSprite_collision_iff (s : State) (x y n : BitVec 4) :
    (s.drawSprite x y n).2 = true ↔
      ∃ px py, px < s.logicalWidth ∧ py < s.logicalHeight ∧ s.getPx px py &&& s.drawMask x y n px py ≠ 0 :=
  (toggled_drawSprite s x y n).collision.trans (drawnToggles_collide_iff s x y n)

theorem drawSprite_reads (s : State) (x y n : BitVec 4) :
    let count := s.drawPlanes.length * ((s.spriteShape n).1 * (s.spriteShape n).2)
    (s.drawSprite x y n).1.busTrace = s.busTrace ++ busReads s s.c8.i.toNat count ∧
      AppendsFaults s (s.drawSprite x y n).1 (rangeFaults s.cfg .outOfBoundsRead s.c8.i.toNat count) := by
  intro count
  have hcount : (spriteBytes s.drawPlanes (s.spriteShape n).1 (s.spriteShape n).2).length = count :=
    spriteBytes_length ..
  rw [← hcount]
  exact drawBytes_reads ..

/-- Settles O44: the run of distinct toggles of the sprite, then the write of `VF`. -/
theorem drawIsAWrappingXorBlit : Obligations.DrawIsAWrappingXorBlit := by
  intro x y n s K LW LH
  have hframe := sameButFb_drawSprite s x y n
  obtain ⟨htrace, hfaults⟩ := drawSprite_reads s x y n
  refine ⟨_, exec_drw x y n s, hframe.setReg_eq 15 _, fun r hr => ?_, cell_drawSprite s x y n, ?_, ?_, htrace,
    hfaults.of_log_eq rfl⟩
  · by_contra hne
    exact hr ((State.reg_setReg_ne _ hne _).trans (hframe.reg r))
  · rw [State.reg_setReg_same]
    exact flagByte_cases _
  · rw [State.reg_setReg_same, flagByte_eq_one_iff]
    exact drawSprite_collision_iff s x y n

end Sys2Proof.Machine
end

section
/-! PROOF. The XOCHIP extensions outside the display (48_xo_ext.md R422 to R428), and the resolution (47_c8_display.md R410,
R411). `LD I, long` and `AUDIO` are runs of ascending bus reads; the flag registers are copied register by register, from a
side that the copy leaves alone. -/

namespace Sys2Proof.Machine

-- The theorems one after the other: elaborated at once they ask for a thread each.
set_option Elab.async false

/-! ## A run of ascending bus reads (R81, R84) -/

/-- Since `s`, the bus reads of `n` ascending addresses from `a` are made, and those out of range reported. -/
def ReadsRun (s t : State) (a n : Nat) : Prop :=
  t.busTrace = s.busTrace ++ busReads s a n ∧ AppendsFaults s t (rangeFaults s.cfg .outOfBoundsRead a n)

theorem ReadsRun.refl (s : State) (a : Nat) : ReadsRun s s a 0 := ⟨by simp [busReads], AppendsFaults.refl s⟩

/-- The read of the lowest address, then the rest: between the two the operation may write registers. -/
theorem ReadsRun.cons {s u t : State} {a n : Nat} (hcfg : u.cfg = s.cfg) (hmem : u.mem = s.mem)
    (htrace : u.busTrace = (s.afterRead a).busTrace) (hlog : u.faultLog = (s.afterRead a).faultLog)
    (h : ReadsRun u t (a + 1) n) : ReadsRun s t a (n + 1) := by
  obtain ⟨hrest, hfaults⟩ := h
  rw [hcfg] at hfaults
  rw [ReadsRun, busReads_succ, rangeFaults_succ]
  refine ⟨?_, ((appendsFaults_afterRead s a).of_log_eq hlog).trans hfaults⟩
  rw [hrest, htrace, State.afterRead_busTrace, busReads_congr hcfg hmem, List.append_assoc, List.singleton_append]

/-! ## `LD I, long` (R422) -/

theorem readsRun_afterRead2 (s : State) (a : Nat) : ReadsRun s (s.afterRead2 a) a 2 := by
  have hsecond : ReadsRun (s.afterRead a) (s.afterRead2 a) (a + 1) 1 :=
    .cons (u := s.afterRead2 a) (by simp) (by simp) rfl rfl (.refl _ _)
  exact .cons (by simp) (by simp) rfl rfl hsecond

/-- A two-byte read changes the fault log and the record of bus operations, and nothing else. -/
theorem State.afterRead2_frame (s : State) (a : Nat) :
    s.afterRead2 a = { s with faultLog := (s.afterRead2 a).faultLog, busTrace := (s.afterRead2 a).busTrace } := by
  rw [State.afterRead2, State.afterRead_frame (s.afterRead a), State.afterRead_frame s]

theorem mkWord_eq_ofNat (hi lo : Byte) : mkWord hi lo = BitVec.ofNat 16 (256 * hi.toNat + lo.toNat) := by
  rw [Nat.mul_comm, ← mkWord_toNat, BitVec.ofNat_toNat, BitVec.setWidth_eq]

theorem exec_ldILong (s : State) :
    exec .ldILong s = .next ((s.afterRead2 s.c8.pc.toNat).updC8 fun c =>
      { c with i := s.readVal2 s.c8.pc.toNat, pc := c.pc + 2 }) := rfl

/-- Settles O39: the two reads at `PC`, then the write of `I` and `PC`. -/
theorem longIndexLoad : Obligations.LongIndexLoad := by
  intro s
  obtain ⟨htrace, hfaults⟩ := readsRun_afterRead2 s s.c8.pc.toNat
  refine ⟨_, exec_ldILong s, ?_, hfaults.of_log_eq rfl⟩
  rw [← htrace, ← mkWord_eq_ofNat, State.afterRead2_frame]
  rfl

/-! ## `PLANE` (R423), `PITCH` and its output (R426, R74) -/

theorem State.getPitch_of_xochip {s : State} (h : s.cfg.arch = .xochip) :
    s.getPitch = some (4000 * (2 : ℝ) ^ (((s.xo.pitch.toNat : ℝ) - 64) / 48)) := if_pos h

theorem State.getPitch_of_ne {s : State} (h : s.cfg.arch ≠ .xochip) : s.getPitch = none := if_neg h

/-- With the pitch register `k` octaves above 64 the output is 4000 doubled `k` times. -/
theorem State.getPitch_octave {s : State} (h : s.cfg.arch = .xochip) {b : Byte} (k : Int) {f : ℝ}
    (hk : (b.toNat : Int) = 64 + 48 * k) (hf : 4000 * (2 : ℝ) ^ k = f) :
    (s.updXo fun o => { o with pitch := b }).getPitch = some f := by
  have hreal : (b.toNat : ℝ) = 64 + 48 * k := by exact_mod_cast hk
  have hexp : ((b.toNat : ℝ) - 64) / 48 = k := by rw [hreal]; ring
  rw [State.getPitch_of_xochip (s := s.updXo _) h, State.updXo_xo, hexp, Real.rpow_intCast, hf]

theorem exec_plane (n : BitVec 4) (s : State) : exec (.plane n) s = .next (s.updXo fun o => { o with plane := n }) := rfl

theorem exec_pitch (x : BitVec 4) (s : State) :
    exec (.pitch x) s = .next (s.updXo fun o => { o with pitch := s.reg x }) := rfl

/-! ## `LOW` and `HIGH` (R410, R411) -/

/-- Either resolution starts from a blank grid. -/
theorem exec_resolution_row {s : State} {i : Instr} {hi : Bool}
    (hrow : (i, hi) ∈ ([(.low, false), (.high, true)] : List (Instr × Bool))) :
    exec i s = .next ((s.setFb FrameBuf.blank).updXo fun o => { o with hires := hi }) := by
  simp only [List.mem_cons, Prod.mk.injEq, List.not_mem_nil, or_false] at hrow
  obtain ⟨rfl, rfl⟩ | ⟨rfl, rfl⟩ := hrow
  case inl => rfl
  case inr => rfl

/-- Settles O40: one register write each, and the output of `PITCH` at the octaves 0, 1 and -1. -/
theorem xochipControlsWriteOneRegister : Obligations.XochipControlsWriteOneRegister := by
  intro x n s
  refine ⟨exec_plane n s, ⟨_, exec_pitch x s, rfl, fun hne => State.getPitch_of_ne hne, fun hxo =>
    ⟨State.getPitch_of_xochip hxo, fun hreg => ?_, fun hreg => ?_, fun hreg => ?_⟩⟩,
    fun i hi hrow => ⟨_, exec_resolution_row hrow, rfl, FrameBuf.cell_blank⟩⟩
  · exact State.getPitch_octave hxo 0 (by simp [hreg]) (by norm_num)
  · exact State.getPitch_octave hxo 1 (by simp [hreg]) (by norm_num)
  · exact State.getPitch_octave hxo (-1) (by simp [hreg]) (by norm_num)

/-! ## `AUDIO` (R424, R58) -/

theorem State.loadPattern_succ (s : State) (a i k : Nat) :
    s.loadPattern a i (k + 1) =
      ((s.afterRead (a + i)).updXo fun o =>
        { o with pattern := o.pattern.setIfInBounds i (s.readVal (a + i)) }).loadPattern a (i + 1) k := rfl

theorem readsRun_loadPattern (s : State) (a i k : Nat) : ReadsRun s (s.loadPattern a i k) (a + i) k := by
  induction k generalizing s i with
  | zero => exact .refl s _
  | succ k ih => exact .cons (by simp) (by simp) rfl rfl (ih _ (i + 1))

/-- An entry of `PATTERN` after one entry is written. -/
theorem pattern_setIfInBounds_getD (pattern : Vector Byte 16) (i : Nat) {j : Nat} (hj : j < 16) (b : Byte) :
    (pattern.setIfInBounds i b).toList.getD j 0 = if j = i then b else pattern.toList.getD j 0 := by
  have hget (v : Vector Byte 16) : v.toList.getD j 0 = v[j] := by simp [hj]
  rw [hget, hget, Vector.getElem_setIfInBounds]
  simp only [eq_comm]

/-- An entry of `PATTERN` after entries `i` to `i + k - 1` are loaded. -/
theorem State.pattern_loadPattern (s : State) (a i k : Nat) {j : Nat} (hj : j < 16) :
    (s.loadPattern a i k).xo.pattern.toList.getD j 0 =
      if i ≤ j ∧ j < i + k then s.readVal (a + j) else s.xo.pattern.toList.getD j 0 := by
  induction k generalizing s i with
  | zero => rw [if_neg (by omega)]; rfl
  | succ k ih =>
    rw [State.loadPattern_succ, ih, State.updXo_xo, pattern_setIfInBounds_getD _ _ hj, State.readVal_updXo,
      State.readVal_afterRead, State.afterRead_xo]
    rcases Nat.lt_trichotomy j i with hlt | rfl | hgt
    · rw [if_neg (by omega), if_neg (by omega), if_neg (by omega)]
    · rw [if_neg (by omega), if_pos rfl, if_pos (by omega)]
    · have hrange : (i ≤ j ∧ j < i + (k + 1)) ↔ (i + 1 ≤ j ∧ j < i + 1 + k) := by omega
      rw [if_neg (by omega : ¬ j = i)]
      simp only [hrange]

/-- Loading the pattern changes `PATTERN`, the fault log and the record of bus operations, and nothing else. -/
theorem State.loadPattern_frame (s : State) (a i k : Nat) :
    s.loadPattern a i k = { s with xo := { s.xo with pattern := (s.loadPattern a i k).xo.pattern },
                                   faultLog := (s.loadPattern a i k).faultLog,
                                   busTrace := (s.loadPattern a i k).busTrace } := by
  have hsame := s.loadPattern_same a i k
  generalize s.loadPattern a i k = t at hsame ⊢
  obtain ⟨⟩ := t
  obtain ⟨rfl, rfl, rfl, rfl, hxo, rfl, rfl⟩ := hsame
  simpa using hxo

theorem exec_audio (s : State) : exec .audio s = .next (s.loadPattern s.c8.i.toNat 0 16) := rfl

/-- Settles O41: the run of sixteen reads; the waveform is read off the pattern entry by entry. -/
theorem audioPatternIsLoaded : Obligations.AudioPatternIsLoaded := by
  intro s
  obtain ⟨htrace, hfaults⟩ := readsRun_loadPattern s s.c8.i.toNat 0 16
  have hentry (k : Nat) (hk : k < 16) :
      (s.loadPattern s.c8.i.toNat 0 16).xo.pattern.toList.getD k 0 = s.readVal (s.c8.i.toNat + k) := by
    rw [State.pattern_loadPattern s _ _ _ hk, if_pos (by omega)]
  refine ⟨_, exec_audio s, ?_, hentry, fun k => ?_, hfaults⟩
  · rw [Nat.add_zero] at htrace
    rw [← htrace]
    exact s.loadPattern_frame _ _ _
  · rw [State.wave, hentry _ (by omega)]

/-! ## The persistent flags (R427, R428) -/

/-- `FLAGS[r]`. -/
def State.flag (s : State) (r : BitVec 4) : Byte := s.xo.flags[r.toNat]'r.isLt

/-- `FLAGS[k]` by its number. -/
theorem State.flag_ofNat (s : State) {k : Nat} (hk : k < 16) :
    s.flag (BitVec.ofNat 4 k) = s.xo.flags.toList.getD k 0 := by
  simp [State.flag, Nat.mod_eq_of_lt hk, hk]

/-- `FLAGS[r] <- b`, one step of `LD R, Vx`. -/
def State.setFlag (s : State) (r : BitVec 4) (b : Byte) : State :=
  s.updXo fun o => { o with flags := o.flags.set r.toNat b r.isLt }

theorem State.flag_setFlag (s : State) (x y : BitVec 4) (b : Byte) :
    (s.setFlag x b).flag y = if y = x then b else s.flag y := by
  simp only [State.flag, State.setFlag, State.updXo_xo, Vector.getElem_set, BitVec.toNat_inj]
  simp only [eq_comm]

theorem State.saveFlags_cons (s : State) (r : BitVec 4) (rest : List (BitVec 4)) :
    s.saveFlags (r :: rest) = (s.setFlag r (s.reg r)).saveFlags rest := rfl

theorem State.restoreFlags_cons (s : State) (r : BitVec 4) (rest : List (BitVec 4)) :
    s.restoreFlags (r :: rest) = (s.setReg r (s.flag r)).restoreFlags rest := rfl

/-- A flag register after a save: no save changes `V`. -/
theorem State.flag_saveFlags (s : State) (rs : List (BitVec 4)) (r : BitVec 4) :
    (s.saveFlags rs).flag r = if r ∈ rs then s.reg r else s.flag r := by
  induction rs generalizing s with
  | nil => rfl
  | cons q rest ih =>
    have hreg : (s.setFlag q (s.reg q)).reg r = s.reg r := State.reg_updXo ..
    rw [State.saveFlags_cons, ih, hreg, State.flag_setFlag]
    by_cases hq : r = q
    · subst hq
      simp
    · simp [hq]

/-- A register after a restore: no restore changes `FLAGS`. -/
theorem State.reg_restoreFlags (s : State) (rs : List (BitVec 4)) (r : BitVec 4) :
    (s.restoreFlags rs).reg r = if r ∈ rs then s.flag r else s.reg r := by
  induction rs generalizing s with
  | nil => rfl
  | cons q rest ih =>
    have hflag : (s.setReg q (s.flag q)).flag r = s.flag r := rfl
    rw [State.restoreFlags_cons, ih, hflag, State.reg_setReg]
    by_cases hq : r = q
    · subst hq
      simp
    · simp [hq]

theorem ofNat_mem_regsTo (x : BitVec 4) {k : Nat} (hk : k < 16) : BitVec.ofNat 4 k ∈ regsTo x ↔ k ≤ x.toNat := by
  rw [mem_regsTo, BitVec.toNat_ofNat, Nat.mod_eq_of_lt hk]

theorem exec_ldRVx (x : BitVec 4) (s : State) : exec (.ldRVx x) s = .next (s.saveFlags (regsTo x)) := rfl

theorem exec_ldVxR (x : BitVec 4) (s : State) : exec (.ldVxR x) s = .next (s.restoreFlags (regsTo x)) := rfl

/-- Settles O42: a save and a restore of registers 0 to x, entry by entry. -/
theorem persistentFlagsSaveAndRestore : Obligations.PersistentFlagsSaveAndRestore := by
  intro x s
  refine ⟨⟨_, exec_ldRVx x s, s.saveFlags_eq _, fun k hk => ?_⟩,
    ⟨_, exec_ldVxR x s, s.restoreFlags_eq _, fun k hk => ?_⟩⟩
  · rw [← State.flag_ofNat _ hk, ← State.reg_ofNat _ hk, ← State.flag_ofNat _ hk, State.flag_saveFlags]
    simp only [ofNat_mem_regsTo x hk]
  · rw [← State.reg_ofNat _ hk, ← State.flag_ofNat _ hk, ← State.reg_ofNat _ hk, State.reg_restoreFlags]
    simp only [ofNat_mem_regsTo x hk]

end Sys2Proof.Machine
end

section
/-! PROOF. `Reset` and `PowerOn` (20_memory.md R93, R94, 70_reset_and_hazards.md R470, R471): the registers each leaves, memory at
power-on, and the invariant there. -/

namespace Sys2Proof.Machine

-- The theorems one after the other: elaborated at once they ask for a thread each.
set_option Elab.async false

/-! ## `Reset` (R471) -/

theorem runHostOp_reset (s : State) : runHostOp .reset s = .next s.hostReset := rfl

theorem State.hostReset_of65 {s : State} (h65 : s.cfg.arch.is65 = true) :
    s.hostReset = { s with m65 := Cpu65.afterReset (mkWord (s.peek 0xFFFD) (s.peek 0xFFFC)) } := if_pos h65

theorem State.hostReset_ofC8 {s : State} (h65 : s.cfg.arch.is65 = false) :
    s.hostReset = { s with
      c8 := CpuC8.afterReset
      xo := { s.xo with plane := 1, hires := false, pitch := 64, pattern := Vector.replicate 16 0,
                        halted := false, cycles := 0 } } := if_neg (Bool.eq_false_iff.mp h65)

/-- An entry of a register file that `Reset` or `PowerOn` fills, by its number. -/
theorem replicate_toList_getD {α : Type} (b d : α) {n k : Nat} (hk : k < n) :
    (Vector.replicate n b).toList.getD k d = b := by
  simp [hk]

/-- `V` after `Reset`. -/
theorem State.reg_of_c8_afterReset {s : State} (h : s.c8 = CpuC8.afterReset) (r : BitVec 4) : s.reg r = 0 := by
  simp only [State.reg, h, CpuC8.afterReset, Vector.getElem_replicate]

/-- `FB` after `Reset`. -/
theorem CpuC8.afterReset_cell (x y : Nat) : CpuC8.afterReset.fb.cell x y = 0 := FrameBuf.cell_blank x y

/-! ## `PowerOn` (R470) -/

theorem runHostOp_powerOn (s : State) : runHostOp .powerOn s = .next s.hostPowerOn := rfl

/-- Memory after `PowerOn` lists no cell. -/
theorem State.peek_hostPowerOn (s : State) (a : Nat) : s.hostPowerOn.peek a = powerOnByte s.cfg a :=
  Mem.read_nil s.cfg a

theorem powerOnByte_of65 {c : Config} (h65 : c.arch.is65 = true) (a : Nat) : powerOnByte c a = 0 := if_pos h65

/-- The fonts (R93, R94) by address: the big font follows the small one without a gap. -/
theorem powerOnByte_eq (c : Config) (a : Nat) :
    powerOnByte c a =
      if c.arch.is65 then 0
      else if a < 80 then fontBytes.getD a 0
      else if c.arch = .xochip ∧ a < 240 then c.bigfont.toList.getD (a - 80) 0
      else 0 := by
  rw [powerOnByte, fontBase, bigfontBase, Nat.sub_zero]
  split
  · rfl
  · split
    · rfl
    · next hfont =>
      have hrange : 80 ≤ a ∧ a < 80 + 160 ↔ a < 240 := by omega
      simp only [hrange]

/-- On the 6502 family memory is all zero at power-on, so the vector that `Reset` reads is the 0 that `PowerOn` left in `PC`;
on the CHIP-8 family `Reset` reads no memory. -/
theorem State.hostReset_hostPowerOn (s : State) : s.hostPowerOn.hostReset = s.hostPowerOn := by
  cases h65 : s.cfg.arch.is65 with
  | true =>
    rw [State.hostReset_of65 (s := s.hostPowerOn) h65, State.peek_hostPowerOn, State.peek_hostPowerOn,
      powerOnByte_of65 h65, powerOnByte_of65 h65]
    rfl
  | false =>
    rw [State.hostReset_ofC8 (s := s.hostPowerOn) h65]
    rfl

/-- Settles O52: `Reset` by family, and `PowerOn` as the state that `Reset` gives back. -/
theorem resetAndPowerOnValues : Obligations.ResetAndPowerOnValues := by
  refine ⟨fun s h65 => ?reset65, fun s h65 => ?resetC8, fun s => ?powerOn⟩
  case reset65 =>
    refine ⟨_, runHostOp_reset s, ?_⟩
    rw [State.hostReset_of65 h65]
    exact ⟨rfl, rfl⟩
  case resetC8 =>
    refine ⟨_, runHostOp_reset s, ?_⟩
    rw [State.hostReset_ofC8 h65]
    exact ⟨rfl, State.reg_of_c8_afterReset rfl, rfl, rfl, rfl, rfl, rfl, rfl,
      fun k hk => ⟨replicate_toList_getD _ _ hk, replicate_toList_getD _ _ hk, replicate_toList_getD _ _ hk⟩,
      rfl, rfl, rfl, CpuC8.afterReset_cell, rfl⟩
  case powerOn =>
    exact ⟨s.hostPowerOn, runHostOp_powerOn s, rfl, rfl, rfl, ⟨_, runHostOp_reset _, s.hostReset_hostPowerOn⟩,
      fun a _ => (s.peek_hostPowerOn a).trans (powerOnByte_eq s.cfg a),
      fun k hk => replicate_toList_getD _ _ hk, rfl, rfl, rfl⟩

/-! ## The invariant at power-on -/

/-- Settles O57: the machine's reset state is a power-on state. -/
theorem invariantHoldsAtPowerOn : Obligations.InvariantHoldsAtPowerOn :=
  ⟨inv_powerOn, inv_powerOn (Config.standard .m6502)⟩

end Sys2Proof.Machine
end
